-- ==== Sys2Proof/Word.lean ====
section
/-! DEFINITION. The widths every rule of the spec uses: the 32-bit register word and the byte of the wire (00 R5). -/

namespace Sys2Proof

/-- A register word: "addressable 32-bit registers" (00 R5). -/
abbrev Word := BitVec 32

/-- A byte of the wire, a raw ADDR or IDX operand, the Status Byte (00 R5). -/
abbrev Byte := BitVec 8

end Sys2Proof
end

