-- ==== Sys2Proof/Syntax.lean ====
section
/-! DEFINITION. The instructions: one constructor for each row of spec/opcode_table.json, 17 host commands (30 R90) and
the 2 wire frames (30 R82, R83), and the two shapes an encoded instruction has. -/

namespace Sys2Proof

/-- `KIND` of an action: 0 = READ, 1 = WRITE (10 R38). -/
inductive ActKind where
  | read | write
deriving DecidableEq, Repr

/-- The instructions. A command carries exactly the operands of 30 R90's "uses" column: `a` is the raw 8-bit `ADDR`,
`f`, `k`, `n` the raw 8-bit `IDX`, `v` the word `cmd_data` (30 R94). A wire frame carries its logical address and, for a
write, its word. -/
inductive Instr where
  | readReg (a : Byte)
  | writeReg (a : Byte) (v : Word)
  | bulk (n : Byte)
  | actionWrite (k : Byte) (kind : ActKind) (a : Byte) (v : Word)
  | actionRead (k : Byte)
  | mapSetState (a : Byte) (v : Word)
  | mapStoreRes
  | mapGet (a : Byte)
  | mapDefault
  | stateCheck (a : Byte)
  | stateSet (a : Byte) (v : Word)
  | fieldGet (a : Byte) (f : Byte)
  | fieldGetRes (a : Byte) (f : Byte)
  | fieldSet (a : Byte) (f : Byte) (v : Word)
  | fieldSetRes (a : Byte) (f : Byte) (v : Word)
  | addrInfo (a : Byte)
  | addrEnum (k : Byte)
  | readFrame (a : Byte)
  | writeFrame (a : Byte) (v : Word)
deriving DecidableEq, Repr

/-- The five bytes of one transaction: the address byte, then the data phase in the order sent (20 R64, 30 R84). -/
structure WireFrame where
  abyte : Byte
  d0 : Byte
  d1 : Byte
  d2 : Byte
  d3 : Byte
deriving DecidableEq, Repr

/-- An encoded instruction: a host command is the pair `(cmd_word, cmd_data)` (30 R87); a wire frame is its five bytes. -/
inductive Encoded where
  | cmd (word data : Word)
  | frame (f : WireFrame)
deriving DecidableEq, Repr

/-- Why a command word is not a command (30 R88, R96). -/
inductive Reject where
  /-- `cmd_word[31:25] != 0` (30 R88). -/
  | rsv1NotZero
  /-- `cmd_word[7:4] != 0` (30 R88). -/
  | rsv0NotZero
  /-- `OP` is 0x0, 0xE or 0xF (30 R96). -/
  | reservedOpcode
deriving DecidableEq, Repr

/-- Bits `hi` down to `lo` of a command word that a row of the opcode table fixes. -/
structure FixedBits where
  hi : Nat
  lo : Nat
  value : Nat
deriving DecidableEq, Repr

/-- A command row of spec/opcode_table.json. -/
structure CommandRow where
  mnemonic : String
  fixed : List FixedBits
deriving DecidableEq, Repr

end Sys2Proof
end

