-- ==== Sys2Proof/WellFormed.lean ====
section
/-! DEFINITION. When an instruction is well formed. Every operand of a command may have every value of its width (30 R94
takes ADDR and IDX raw; a value that names nothing is an error the command reports). A wire frame's logical address has
7 bits (00 R5, 30 R81). The catalog's own checks (00 R7) stand in Config.lean. -/

namespace Sys2Proof

/-- A logical address: 0x00 to 0x7F (20 R61). -/
def isLogicalAddr (a : Byte) : Bool := decide (a < 0x80#8)

/-- The check on an instruction. -/
def Instr.wf : Instr → Bool
  | .readReg _ => true
  | .writeReg _ _ => true
  | .bulk _ => true
  | .actionWrite _ _ _ _ => true
  | .actionRead _ => true
  | .mapSetState _ _ => true
  | .mapStoreRes => true
  | .mapGet _ => true
  | .mapDefault => true
  | .stateCheck _ => true
  | .stateSet _ _ => true
  | .fieldGet _ _ => true
  | .fieldGetRes _ _ => true
  | .fieldSet _ _ _ => true
  | .fieldSetRes _ _ _ => true
  | .addrInfo _ => true
  | .addrEnum _ => true
  | .readFrame a => isLogicalAddr a
  | .writeFrame a _ => isLogicalAddr a

end Sys2Proof
end

