-- ==== Sys2Proof/Decode.lean ====
section
/-! DEFINITION. Decoding and encoding: the wire frames of 30 R81 to R86 and the command word of 30 R87 to R98. Decoding
is total: every command word is one command or is rejected by name (30 R98), and every five bytes are one frame. -/

namespace Sys2Proof

/-! ### The data phase (20 R66, 30 R84) -/

/-- `be32(w)`, the four bytes of a word, most significant first (00 R14). -/
def be32 (w : Word) : List Byte := [w.extractLsb' 24 8, w.extractLsb' 16 8, w.extractLsb' 8 8, w.extractLsb' 0 8]

/-- `unbe32([b0, b1, b2, b3])` (00 R14). -/
def unbe32 (b0 b1 b2 b3 : Byte) : Word := b0 ++ b1 ++ b2 ++ b3

/-- `READ_FILL`, the word sent in the data phase of every read-framed transaction (00 R11, D14). -/
def readFill : Word := 0x00000000#32

/-- The frame of address byte `abyte` and data word `w` (42 R161). -/
def mkFrame (abyte : Byte) (w : Word) : WireFrame :=
  { abyte := abyte, d0 := w.extractLsb' 24 8, d1 := w.extractLsb' 16 8, d2 := w.extractLsb' 8 8, d3 := w.extractLsb' 0 8 }

/-- The data word a frame carries (30 R84). -/
def WireFrame.word (f : WireFrame) : Word := unbe32 f.d0 f.d1 f.d2 f.d3

/-- The frame's bytes in the order they are sent (20 R64). -/
def WireFrame.bytes (f : WireFrame) : List Byte := [f.abyte, f.d0, f.d1, f.d2, f.d3]

/-- The transport's operation list: two transfer-in-place buffers, of 1 and 4 bytes (30 R86). -/
def WireFrame.transfers (f : WireFrame) : List (List Byte) := [[f.abyte], [f.d0, f.d1, f.d2, f.d3]]

/-- Address byte of a read: bit 7 = 0, bits 6:0 the logical address (30 R81, R83). -/
def readAbyte (a : Byte) : Byte := a &&& 0x7F#8

/-- Address byte of a write: `a | 0x80` (30 R82). -/
def writeAbyte (a : Byte) : Byte := a ||| 0x80#8

/-! ### The command word (30 R87) -/

/-- `RSV1`, bits 31:25. -/
def cmdRsv1 (w : Word) : BitVec 7 := w.extractLsb' 25 7
/-- `KIND`, bit 24. -/
def cmdKind (w : Word) : Bool := w.getLsbD 24
/-- `IDX`, bits 23:16. -/
def cmdIdx (w : Word) : Byte := w.extractLsb' 16 8
/-- `ADDR`, bits 15:8. -/
def cmdAddr (w : Word) : Byte := w.extractLsb' 8 8
/-- `RSV0`, bits 7:4. -/
def cmdRsv0 (w : Word) : BitVec 4 := w.extractLsb' 4 4
/-- `OP`, bits 3:0. -/
def cmdOp (w : Word) : BitVec 4 := w.extractLsb' 0 4

/-- Opcode of READ_REG (30 R90). -/
def opReadReg : BitVec 4 := 0x1#4
/-- Opcode of WRITE_REG (30 R90). -/
def opWriteReg : BitVec 4 := 0x2#4
/-- Opcode of BULK (30 R90). -/
def opBulk : BitVec 4 := 0x3#4

/-- `KIND` as ACTION_WRITE's operand: 0 = READ, 1 = WRITE (30 R95). -/
def kindOfBit (b : Bool) : ActKind := if b then .write else .read

/-- The bit of a kind (10 R38). -/
def bitOfKind : ActKind → Bool
  | .read => false
  | .write => true

/-- The command a legal opcode selects (30 R90); none for the reserved opcodes (30 R96). -/
def commandOf (w d : Word) : Option Instr :=
  match (cmdOp w).toNat with
  | 0x1 => some (.readReg (cmdAddr w))
  | 0x2 => some (.writeReg (cmdAddr w) d)
  | 0x3 => some (.bulk (cmdIdx w))
  | 0x4 => some (.actionWrite (cmdIdx w) (kindOfBit (cmdKind w)) (cmdAddr w) d)
  | 0x5 => some (.actionRead (cmdIdx w))
  | 0x6 => some (if cmdKind w then .mapStoreRes else .mapSetState (cmdAddr w) d)
  | 0x7 => some (.mapGet (cmdAddr w))
  | 0x8 => some .mapDefault
  | 0x9 => some (if cmdKind w then .stateSet (cmdAddr w) d else .stateCheck (cmdAddr w))
  | 0xA => some (if cmdKind w then .fieldGetRes (cmdAddr w) (cmdIdx w) else .fieldGet (cmdAddr w) (cmdIdx w))
  | 0xB => some (if cmdKind w then .fieldSetRes (cmdAddr w) (cmdIdx w) d else .fieldSet (cmdAddr w) (cmdIdx w) d)
  | 0xC => some (.addrInfo (cmdAddr w))
  | 0xD => some (.addrEnum (cmdIdx w))
  | _ => none

/-- Decoding of a command, with the common checks of 60 R205 first. -/
def decodeCmd (w d : Word) : Except Reject Instr :=
  if cmdRsv1 w ≠ 0 then .error .rsv1NotZero
  else if cmdRsv0 w ≠ 0 then .error .rsv0NotZero
  else match commandOf w d with
    | none => .error .reservedOpcode
    | some i => .ok i

/-- Decoding of a frame: bit 7 of the address byte is the direction (30 R81, R98). The data phase of a read is
"don't-care" (30 R83), so it is not looked at. DEDUCED (log 11). -/
def decodeFrame (f : WireFrame) : Instr :=
  if f.abyte.getLsbD 7 then .writeFrame (readAbyte f.abyte) f.word else .readFrame f.abyte

/-- The decoder. -/
def decode : Encoded → Except Reject Instr
  | .cmd w d => decodeCmd w d
  | .frame f => .ok (decodeFrame f)

/-! ### The encoder, from the same tables -/

/-- A command word from its fields, reserved bits zero (30 R87). -/
def cmdWord (op : BitVec 4) (kind : Bool) (idx addr : Byte) : Word :=
  0#7 ++ BitVec.ofBool kind ++ idx ++ addr ++ 0#4 ++ op

/-- The words of an instruction, unused fields zero (30 R90, R99). -/
def encode : Instr → Encoded
  | .readReg a => .cmd (cmdWord 0x1#4 false 0#8 a) 0#32
  | .writeReg a v => .cmd (cmdWord 0x2#4 false 0#8 a) v
  | .bulk n => .cmd (cmdWord 0x3#4 false n 0#8) 0#32
  | .actionWrite k kind a v => .cmd (cmdWord 0x4#4 (bitOfKind kind) k a) v
  | .actionRead k => .cmd (cmdWord 0x5#4 false k 0#8) 0#32
  | .mapSetState a v => .cmd (cmdWord 0x6#4 false 0#8 a) v
  | .mapStoreRes => .cmd (cmdWord 0x6#4 true 0#8 0#8) 0#32
  | .mapGet a => .cmd (cmdWord 0x7#4 false 0#8 a) 0#32
  | .mapDefault => .cmd (cmdWord 0x8#4 false 0#8 0#8) 0#32
  | .stateCheck a => .cmd (cmdWord 0x9#4 false 0#8 a) 0#32
  | .stateSet a v => .cmd (cmdWord 0x9#4 true 0#8 a) v
  | .fieldGet a f => .cmd (cmdWord 0xA#4 false f a) 0#32
  | .fieldGetRes a f => .cmd (cmdWord 0xA#4 true f a) 0#32
  | .fieldSet a f v => .cmd (cmdWord 0xB#4 false f a) v
  | .fieldSetRes a f v => .cmd (cmdWord 0xB#4 true f a) v
  | .addrInfo a => .cmd (cmdWord 0xC#4 false 0#8 a) 0#32
  | .addrEnum k => .cmd (cmdWord 0xD#4 false k 0#8) 0#32
  | .readFrame a => .frame (mkFrame (readAbyte a) readFill)
  | .writeFrame a v => .frame (mkFrame (writeAbyte a) v)

/-! ### The opcode table -/

/-- The row's mnemonic in spec/opcode_table.json. -/
def Instr.mnemonic : Instr → String
  | .readReg _ => "READ_REG"
  | .writeReg _ _ => "WRITE_REG"
  | .bulk _ => "BULK"
  | .actionWrite _ _ _ _ => "ACTION_WRITE"
  | .actionRead _ => "ACTION_READ"
  | .mapSetState _ _ => "MAP_SET_STATE"
  | .mapStoreRes => "MAP_STORE_RES"
  | .mapGet _ => "MAP_GET"
  | .mapDefault => "MAP_DEFAULT"
  | .stateCheck _ => "STATE_CHECK"
  | .stateSet _ _ => "STATE_SET"
  | .fieldGet _ _ => "FIELD_GET"
  | .fieldGetRes _ _ => "FIELD_GET_RES"
  | .fieldSet _ _ _ => "FIELD_SET"
  | .fieldSetRes _ _ _ => "FIELD_SET_RES"
  | .addrInfo _ => "ADDR_INFO"
  | .addrEnum _ => "ADDR_ENUM"
  | .readFrame _ => "READ_FRAME"
  | .writeFrame _ _ => "WRITE_FRAME"

/-- A row that fixes bits 7:0 (RSV0 and OP) and 31:25 (RSV1). -/
def rowAnyKind (m : String) (op : Nat) : CommandRow := ⟨m, [⟨7, 0, op⟩, ⟨31, 25, 0⟩]⟩

/-- A row that fixes bits 7:0 and 31:24 (RSV1 and KIND). -/
def rowKind (m : String) (op kind : Nat) : CommandRow := ⟨m, [⟨7, 0, op⟩, ⟨31, 24, kind⟩]⟩

/-- The 17 command rows of spec/opcode_table.json, in its order. -/
def commandRows : List CommandRow :=
  [ rowAnyKind "READ_REG" 1, rowAnyKind "WRITE_REG" 2, rowAnyKind "BULK" 3, rowAnyKind "ACTION_WRITE" 4,
    rowAnyKind "ACTION_READ" 5, rowKind "MAP_SET_STATE" 6 0, rowKind "MAP_STORE_RES" 6 1, rowAnyKind "MAP_GET" 7,
    rowAnyKind "MAP_DEFAULT" 8, rowKind "STATE_CHECK" 9 0, rowKind "STATE_SET" 9 1 ] ++
  [ rowKind "FIELD_GET" 10 0, rowKind "FIELD_GET_RES" 10 1, rowKind "FIELD_SET" 11 0, rowKind "FIELD_SET_RES" 11 1,
    rowAnyKind "ADDR_INFO" 12, rowAnyKind "ADDR_ENUM" 13 ]

/-- The word has the row's fixed bits. -/
def CommandRow.matches (r : CommandRow) (w : Word) : Bool :=
  r.fixed.all fun b => decide (w.toNat / 2 ^ b.lo % 2 ^ (b.hi + 1 - b.lo) = b.value)

/-! ### The host's reading of a table row -/

/-- The instruction whose bits are `w`, numbered from the least significant bit of its first word: a frame (40 bits) is
five bytes, the address byte first; a command is `cmd_word`, then `cmd_data`. Bits above `nbits` are 0 (log 12). -/
def encodedOfTableWord (nbits w : Nat) : Encoded :=
  let b := BitVec.ofNat 64 (w % 2 ^ nbits)
  if nbits = 40 then
    .frame ⟨b.extractLsb' 0 8, b.extractLsb' 8 8, b.extractLsb' 16 8, b.extractLsb' 24 8, b.extractLsb' 32 8⟩
  else .cmd (b.extractLsb' 0 32) (b.extractLsb' 32 32)

/-- The instruction the decoder reads from it. -/
def decodeTableWord (nbits w : Nat) : Option Instr :=
  match decode (encodedOfTableWord nbits w) with
  | .ok i => some i
  | .error _ => none

end Sys2Proof
end

