-- ==== Sys2Proof/Config.lean ====
section
/-! DEFINITION. What an implementation of the block fixes: the register catalog CATALOG and the capacity MAX_ACTIONS
(00 R6 to R9, parameters P1 and P2), with the seven well-formedness conditions of 00 R7. A `Config` carries the proof
that its check holds, so an ill-formed catalog is refused when it is elaborated, never at run time (00 R7, U12). -/

namespace Sys2Proof

/-- Access mode of a catalog entry (00 R6). -/
inductive AccessMode where
  | ro | wo | rw
deriving DecidableEq, Repr

/-- `readable` as a function of the access mode (00 R19). -/
def AccessMode.readable : AccessMode → Bool
  | .ro => true
  | .wo => false
  | .rw => true

/-- `writable` as a function of the access mode (00 R19). -/
def AccessMode.writable : AccessMode → Bool
  | .ro => false
  | .wo => true
  | .rw => true

/-- A field descriptor `(name, off, width)` (00 R6). The name "is metadata with no effect on any rule" (40 R110). -/
structure FieldDesc where
  name  : String
  off   : Nat
  width : Nat
deriving DecidableEq, Repr

/-- One catalog entry (00 R6). The logical address is 7 bits (00 R5), so condition (2) of 00 R7 holds by its type. -/
structure CatalogEntry where
  addr    : BitVec 7
  mode    : AccessMode
  fields  : List FieldDesc
  default : Word
deriving DecidableEq, Repr

/-- The ordered entries `CATALOG[0 .. N_REGS-1]` (00 R6). -/
abbrev Catalog := List CatalogEntry

/-- 00 R7 (3): the field lies inside the word. -/
def FieldDesc.inWord (d : FieldDesc) : Bool :=
  decide (1 ≤ d.width) && decide (d.width ≤ 32) && decide (d.off ≤ 31) && decide (d.off + d.width ≤ 32)

/-- Two descriptors cover no common bit (00 R7 (4)). -/
def FieldDesc.disjoint (d e : FieldDesc) : Bool :=
  decide (d.off + d.width ≤ e.off) || decide (e.off + e.width ≤ d.off)

/-- 00 R7 (1): the addresses are pairwise distinct. -/
def Catalog.addrsDistinct (c : Catalog) : Bool := decide ((c.map (·.addr)).Nodup)

/-- 00 R7 (3), for every field of every entry. -/
def Catalog.fieldsInWord (c : Catalog) : Bool := c.all fun e => e.fields.all (·.inWord)

/-- 00 R7 (4), for every entry. -/
def Catalog.noOverlap (c : Catalog) : Bool :=
  c.all fun e => decide (e.fields.Pairwise fun d d' => d.disjoint d' = true)

/-- 00 R7 (5): `1 <= N_REGS <= 128`. -/
def Catalog.sizeOk (c : Catalog) : Bool := decide (1 ≤ c.length) && decide (c.length ≤ 128)

/-- 00 R7 (6): `nf(k) <= 32`. -/
def Catalog.fieldCountOk (c : Catalog) : Bool := c.all fun e => decide (e.fields.length ≤ 32)

/-- 00 R7 (7): ascending address order. -/
def Catalog.ascending (c : Catalog) : Bool := decide ((c.map (·.addr.toNat)).Pairwise (· < ·))

/-- All conditions of 00 R7 together. -/
def Catalog.wellFormed (c : Catalog) : Bool :=
  c.addrsDistinct && c.fieldsInWord && c.noOverlap && c.sizeOk && c.fieldCountOk && c.ascending

/-- 00 R7 and 00 R9 (`1 <= MAX_ACTIONS <= 255`). -/
def configCheck (c : Catalog) (maxActions : Nat) : Bool :=
  c.wellFormed && decide (1 ≤ maxActions) && decide (maxActions ≤ 255)

/-- The configuration of one block: CATALOG and MAX_ACTIONS, checked (00 R7: "A model is not defined over an ill-formed
catalog, so it refuses one at elaboration"). -/
structure Config where
  catalog    : Catalog
  maxActions : Nat
  checked    : configCheck catalog maxActions = true
deriving DecidableEq, Repr

/-- `N_REGS` (00 R8). -/
def Config.nRegs (c : Config) : Nat := c.catalog.length

/-- Which tokens the transport's error payloads are: the parameter of the type `TErr` (00 R10, P3, U5). It has no body, so
nothing can be proved of it. -/
opaque Config.terrToken : Nat → Bool

/-- The parameter type `TErr`, the payload of a transport error, "opaque, propagated unchanged" (00 R10): any type of
tokens, finite or not. DESIGN CHOICE (log 3): the tokens are numbered, and number 0 is one of them, so that a transport
can fail. -/
structure TErr where
  token : Nat
  legal : token = 0 ∨ Config.terrToken token = true
deriving DecidableEq, Repr

/-- The fixture catalog FX of 95 section 0.1. -/
def fixtureCatalog : Catalog :=
  [ { addr := 0x00#7, mode := .rw, fields := [⟨"f0", 0, 1⟩, ⟨"f1", 1, 1⟩, ⟨"f2", 2, 1⟩, ⟨"f3", 4, 1⟩], default := 0x00000000#32 },
    { addr := 0x04#7, mode := .ro, fields := [⟨"f0", 0, 8⟩, ⟨"f1", 24, 8⟩], default := 0x11000000#32 },
    { addr := 0x10#7, mode := .wo, fields := [⟨"f0", 0, 5⟩, ⟨"f1", 8, 5⟩, ⟨"f2", 16, 4⟩], default := 0x00000000#32 },
    { addr := 0x21#7, mode := .rw, fields := [⟨"f0", 0, 32⟩], default := 0x00000000#32 },
    { addr := 0x6C#7, mode := .rw,
      fields := [⟨"f0", 0, 4⟩, ⟨"f1", 4, 3⟩, ⟨"f2", 7, 4⟩, ⟨"f3", 24, 4⟩, ⟨"f4", 31, 1⟩], default := 0x10410150#32 } ]

/-- The spec's own test configuration: FX with `MAX_ACTIONS = 8` (95 section 0.1). DESIGN CHOICE (log 2): this is the
configuration of `State.reset`. Every statement that does not name it holds for every `Config`. -/
def Config.fixture : Config := { catalog := fixtureCatalog, maxActions := 8, checked := by decide }

end Sys2Proof
end

