-- ==== Sys2Proof/Machine/State.lean ====
section
/-! DEFINITION. The machine's state: the registers of 10 R20, the configuration (00 R6 to R9), and the model's own lists
that say what the environment does (log 4 to 6). Its faults, its refusals, and the state after reset (70 R230). -/

namespace Sys2Proof.Machine

/-- `FSM`, 2 bits: IDLE=0, ISSUE=1, WAIT=2 (10 R21). The fourth value "is never written"; a state that has it is an
internal fault (60 R218). -/
inductive Fsm where
  | idle | issue | wait | reserved3
deriving DecidableEq, Repr

/-- The completion codes of `ERR` that exist (10 R34). The reserved codes 8 to 15, "never produced", have no value. -/
inductive ErrCode where
  | none | unknownAddress | unexpectedAddress | transportError | illegalCommand | accessDenied | badField | badIndex
deriving DecidableEq, Repr

/-- A slot of the register map: the tag (7 bits) and the word (10 R36). -/
structure MapSlot where
  tag  : BitVec 7
  word : Word
deriving DecidableEq, Repr

/-- An entry of the action buffer (10 R38). -/
structure Action where
  valid : Bool
  kind  : ActKind
  tag   : Byte
  word  : Word
deriving DecidableEq, Repr

/-- A transport result: `OK(status, [b0, b1, b2, b3])` or `ERR(e)` (00 R16, 30 R91). -/
inductive Reply where
  | ok (status b0 b1 b2 b3 : Byte)
  | err (e : TErr)
deriving DecidableEq, Repr

/-- THE MODEL'S OWN fields, not the spec's: what host and transport do, and what the block has sent (log 4 to 6). -/
structure Env where
  /-- The pair at the command port (the head) and the pairs the host presents after it (30 R92). -/
  hostCmds  : List (Word × Word)
  /-- The results the transport will deliver, in order (30 R91). -/
  replies   : List Reply
  /-- Whether `Reset` is asserted at each coming step; not asserted where the list has ended (60 R216). -/
  resetLine : List Bool
  /-- The transactions handed to the transport, oldest first (20 R64). -/
  wire      : List WireFrame
deriving DecidableEq, Repr

/-- The state. Field by field the tuple of 10 R20, then the configuration and the environment. -/
structure State where
  /-- `FSM` (10 R21). -/
  fsm       : Fsm
  /-- `CUR_OP` (10 R22). -/
  curOp     : BitVec 4
  /-- `CUR_ADDR` (10 R23). -/
  curAddr   : Byte
  /-- `CUR_DATA` (10 R24). -/
  curData   : Word
  /-- `SEQ_N` (10 R25). -/
  seqN      : BitVec 8
  /-- `SEQ_I`, the program counter (10 R27). -/
  seqI      : BitVec 9
  /-- `SEQ_TRAIL` (10 R26). -/
  seqTrail  : Bool
  /-- `TX_ABYTE` (10 R29). -/
  txAbyte   : Byte
  /-- `TX_DATA` (10 R29). -/
  txData    : Word
  /-- `TXN_COUNT` (10 R30). -/
  txnCount  : BitVec 9
  /-- `RES_STATUS` (10 R31). -/
  resStatus : Byte
  /-- `RES_TAG` (10 R32). -/
  resTag    : Byte
  /-- `RES_WORD` (10 R32). -/
  resWord   : Word
  /-- `RES_VALID` (10 R32). -/
  resValid  : Bool
  /-- `RES_AUX` (10 R33). -/
  resAux    : Word
  /-- `ERR` (10 R34). -/
  err       : ErrCode
  /-- `TERR`; no value at reset (10 R35). -/
  terr      : Option TErr
  /-- `MAP` (10 R36), slot `k` at position `k`. -/
  map       : List MapSlot
  /-- `ACT` (10 R38), entry `k` at position `k`. -/
  act       : List Action
  /-- CATALOG and MAX_ACTIONS: configuration, written by no step (10 R39; log 1). -/
  cfg       : Config
  /-- The environment (log 4). -/
  env       : Env
deriving DecidableEq, Repr

/-- Why the machine stops. Every one is an internal fault: 60 R218 asks that a state no rule reaches be recorded as a
fault and given no value. All are safe: the model stops and claims nothing. -/
inductive Fault where
  /-- `FSM = 3` (60 R218). Raised by `exec` and `step`. -/
  | fsmReserved
  /-- A map slot with `MAP[k].TAG != CATALOG[k].addr`, or a map that has not `N_REGS` slots (60 R218, 41 R145). Raised by
  `exec` and `step`. -/
  | mapTagMismatch
  /-- A valid state, in `ACT` or `RES`, with an unknown tag (60 R218). Raised by `exec` and `step`. -/
  | unknownTag
  /-- The action buffer has not `MAX_ACTIONS` entries (10 R38; log 9). Raised by `exec` and `step`. -/
  | actionBufferSize
  /-- Sequencer registers for which no rule gives a frame or a continuation (42 R162 to R172; log 9). Raised by `step`
  while `FSM` is ISSUE or WAIT. -/
  | sequencerState
deriving DecidableEq, Repr

/-- Why `exec` has no meaning for an instruction in a state. -/
inductive Refusal where
  /-- The instruction has no meaning in the model yet. Raised by `exec` only. Safe. -/
  | notModelled (mnemonic : String)
  /-- A wire frame while `FSM != ISSUE`: "`Issue` ... is enabled only when `FSM = ISSUE`" (00 R16), so there is no such
  step (log 8). Raised by `exec` of a frame; `step` never asks for it. Safe. -/
  | issueNotEnabled
deriving DecidableEq, Repr

/-- The outcome of a meaning. -/
abbrev Result := Host.Outcome State Fault Refusal

/-- An empty action entry: the reset value of `ACT[k]` (70 R230). -/
def Action.empty : Action := { valid := false, kind := .read, tag := 0#8, word := 0#32 }

/-- An environment that does nothing. -/
def Env.quiet : Env := { hostCmds := [], replies := [], resetLine := [], wire := [] }

/-- The registers after `Reset`, over a configuration (70 R230, 10 R20). -/
def State.resetOf (c : Config) (env : Env) : State where
  fsm := .idle
  curOp := 0#4
  curAddr := 0#8
  curData := 0#32
  seqN := 0#8
  seqI := 0#9
  seqTrail := false
  txAbyte := 0#8
  txData := 0#32
  txnCount := 0#9
  resStatus := 0#8
  resTag := 0#8
  resWord := 0#32
  resValid := false
  resAux := 0#32
  err := .none
  terr := Option.none
  map := c.catalog.map fun e => { tag := e.addr, word := e.default }
  act := List.replicate c.maxActions Action.empty
  cfg := c
  env := env

/-- The machine right after reset, over the spec's fixture configuration (95 section 0.2; log 2), the environment
quiet. -/
def State.reset : State := State.resetOf Config.fixture Env.quiet

end Sys2Proof.Machine
end

