-- ==== Sys2Proof/Machine/Operands.lean ====
section
/-! DEFINITION. What operands name: the address decoder and catalog queries (41 R130, R131), the bit-field codec (40 R110 to
R115), and the internal consistency of a state (60 R218). -/

namespace Sys2Proof

/-! ### Address decoder and catalog queries -/

/-- `slot(a)`: the position of the entry with address `a`; none for UNKNOWN (41 R130). -/
def Config.slot (c : Config) (a : Byte) : Option Nat :=
  c.catalog.findIdx? fun e => e.addr.setWidth 8 == a

/-- The entry `slot(a)` selects. -/
def Config.entryOf (c : Config) (a : Byte) : Option CatalogEntry := (c.slot a).bind fun k => c.catalog[k]?

/-- `readable(a)` (00 R19). -/
def Config.readable (c : Config) (a : Byte) : Bool := (c.entryOf a).any fun e => e.mode.readable

/-- `writable(a)` (00 R19). -/
def Config.writable (c : Config) (a : Byte) : Bool := (c.entryOf a).any fun e => e.mode.writable

/-- `layout(k)` (40 R115). -/
def Config.layout (c : Config) (k : Nat) : List FieldDesc :=
  match c.catalog[k]? with
  | none => []
  | some e => e.fields

/-- `nf(k)` (40 R115). -/
def Config.nf (c : Config) (k : Nat) : Nat := (c.layout k).length

/-- `FMUX(k, f)`; none for `f >= nf(k)` (40 R115). -/
def Config.fmux (c : Config) (k f : Nat) : Option FieldDesc := (c.layout k)[f]?

/-- The INFO word of an entry at slot `k` (41 R131). -/
def infoWord (k : Nat) (e : CatalogEntry) : Word :=
  BitVec.ofNat 8 e.fields.length ++ BitVec.ofNat 8 k ++ 0#6 ++ BitVec.ofBool e.mode.writable ++
    BitVec.ofBool e.mode.readable ++ 0#1 ++ e.addr

/-- `INFO(k)`; none for `k >= N_REGS` (41 R131). -/
def Config.info (c : Config) (k : Nat) : Option Word := (c.catalog[k]?).map (infoWord k)

/-! ### The codec -/

/-- `mask(n)`: the word whose bits `n-1..0` are one (00 R13). -/
def mask (n : Nat) : Word := (BitVec.allOnes n).setWidth 32

/-- `fmask(d)`, the field's in-place mask (40 R110). -/
def fmask (d : FieldDesc) : Word := mask d.width <<< d.off

/-- `field_get(d, w)` (40 R111). -/
def fieldGet (d : FieldDesc) (w : Word) : Word := (w >>> d.off) &&& mask d.width

/-- `field_set(d, w, v)`, with silent truncation (40 R112). -/
def fieldSet (d : FieldDesc) (w v : Word) : Word := (w &&& ~~~(fmask d)) ||| ((v &&& mask d.width) <<< d.off)

/-- `encode(L, [v0, ...])` (40 R113). -/
def encodeFields (l : List FieldDesc) (vs : List Word) : Word :=
  (l.zip vs).foldl (fun w p => fieldSet p.1 w p.2) 0#32

/-- `decode(L, w)` (40 R114). -/
def decodeFields (l : List FieldDesc) (w : Word) : List Word := l.map fun d => fieldGet d w

/-- `U(L)`, the OR of the fields' masks (40 R121). -/
def fieldUnion (l : List FieldDesc) : Word := l.foldl (fun u d => u ||| fmask d) 0#32

namespace Machine

/-- A tag names a catalog entry (41 R146). -/
def State.known (s : State) (tag : Byte) : Bool := (s.cfg.slot tag).isSome

/-- Every valid state of `ACT` and `RES` has a known tag (60 R218). -/
def State.tagsKnown (s : State) : Bool :=
  (s.act.all fun e => !e.valid || s.known e.tag) && (!s.resValid || s.known s.resTag)

/-- The internal fault a state has, if any: the three of 60 R218 and an action buffer of a wrong size (log 9). -/
def State.internalFault (s : State) : Option Fault :=
  if s.fsm = .reserved3 then some .fsmReserved
  else if s.map.map (·.tag) ≠ s.cfg.catalog.map (·.addr) then some .mapTagMismatch
  else if s.tagsKnown = false then some .unknownTag
  else if s.act.length ≠ s.cfg.maxActions then some .actionBufferSize
  else none

/-- An action's frame (42 R170). -/
def Action.frame (e : Action) : WireFrame :=
  match e.kind with
  | .write => mkFrame (e.tag ||| 0x80#8) e.word
  | .read => mkFrame e.tag readFill

/-- `FRAME(state)`: the next transaction's frame, by 42 R162 for READ_REG and WRITE_REG and 42 R170 for BULK; none where
no rule gives one. -/
def State.frame (s : State) : Option WireFrame :=
  if s.curOp = opReadReg then some (mkFrame s.curAddr readFill)
  else if s.curOp = opWriteReg then some (mkFrame (s.curAddr ||| 0x80#8) s.curData)
  else if s.curOp = opBulk then
    if s.seqTrail then
      match s.seqN.toNat with
      | 0 => none
      | n + 1 => (s.act[n]?).map fun e => mkFrame e.tag readFill
    else (s.act[s.seqI.toNat]?).map Action.frame
  else none

/-- The states `PENDING`, `SENT` and `RESOLVED` of an action in a BULK (42 R175). -/
inductive Phase where
  | pending | sent | resolved
deriving DecidableEq, Repr

/-- The action of a state's buffer at `j` is a READ. -/
def State.isReadAt (s : State) (j : Nat) : Bool := (s.act[j]?).any fun e => decide (e.kind = .read)

/-- A BULK is in progress (10 R21, R22). -/
def State.bulkInProgress (s : State) : Bool := decide (s.curOp = opBulk ∧ (s.fsm = .issue ∨ s.fsm = .wait))

/-- The condition of `PENDING(j)`: transaction `j` is not yet issued (42 R175). -/
def State.isPending (s : State) (j : Nat) : Bool :=
  decide (s.seqTrail = false ∧ (s.seqI.toNat < j ∨ (s.seqI.toNat = j ∧ s.fsm = .issue)))

/-- The condition of `SENT(j)`: transaction `j` is issued and `j` is not yet resolved (42 R175). -/
def State.isSent (s : State) (j : Nat) : Bool :=
  decide ((s.seqTrail = false ∧ s.seqI.toNat = j ∧ s.fsm = .wait) ∨ s.seqI.toNat = j + 1 ∨
    (j + 1 = s.seqN.toNat ∧ s.isReadAt j = true ∧ s.seqTrail = true))

/-- The state of action `j < SEQ_N` "for a BULK in progress", as a function of the registers (42 R175, 10 R42). None where
no BULK is in progress: the rule gives an action no state then. -/
def State.phase (s : State) (j : Nat) : Option Phase :=
  if s.bulkInProgress = true ∧ j < s.seqN.toNat then
    some (if s.isPending j then .pending else if s.isSent j then .sent else .resolved)
  else none

/-- The outstanding transaction is the one whose `Reply(OK)` step resolves action `j` (42 R175): transaction `j + 1` for
`j < N-1`, the trailing one for a read `N-1`, its own for a write `N-1`. -/
def State.resolves (s : State) (j : Nat) : Bool :=
  s.bulkInProgress && decide (s.fsm = .wait) &&
    if j + 1 < s.seqN.toNat then decide (s.seqI.toNat = j + 1)
    else decide (j + 1 = s.seqN.toNat) && if s.isReadAt j then s.seqTrail else decide (s.seqI.toNat = j)

/-- A read result still owed: the index of the action it belongs to, or 0 for a READ_REG (10 R41). -/
def State.pendingRead (s : State) : Option Nat :=
  if s.fsm = .idle then none
  else if s.curOp = opReadReg then (if s.seqI = 1#9 then some 0 else none)
  else if s.curOp = opBulk then
    match (if s.seqTrail then s.seqN.toNat else s.seqI.toNat) with
    | 0 => none
    | j + 1 => if s.isReadAt j then some j else none
  else none

end Machine

end Sys2Proof
end

