-- ==== Sys2Proof/Machine/Flags.lean ====
section
/-! DEFINITION. The block's flags, "`ERR`, `RES_VALID` and `cmd_ready`" (10 R45), the codes the host reads, and the response
port (10 R40, 30 R93). -/

namespace Sys2Proof.Machine

/-- The 2-bit code of `FSM` (10 R20). -/
def Fsm.code : Fsm → BitVec 2
  | .idle => 0#2
  | .issue => 1#2
  | .wait => 2#2
  | .reserved3 => 3#2

/-- The 4-bit code of `ERR` (10 R34). -/
def ErrCode.code : ErrCode → BitVec 4
  | .none => 0#4
  | .unknownAddress => 1#4
  | .unexpectedAddress => 2#4
  | .transportError => 3#4
  | .illegalCommand => 4#4
  | .accessDenied => 5#4
  | .badField => 6#4
  | .badIndex => 7#4

/-- `cmd_ready`: `FSM = IDLE` (10 R45). -/
def State.cmdReady (s : State) : Bool := decide (s.fsm = .idle)

/-- `ERR <- NONE`, which ends every successful command (40, the command rule template). -/
def State.succeed (s : State) : State := { s with err := .none }

/-- Typed extraction from the transient state: succeeds iff it exists and its tag is `a` (41 R136). -/
def State.resHolds (s : State) (a : Byte) : Bool := s.resValid && decide (s.resTag = a)

/-- The response port's outputs (10 R40). -/
structure ResponsePort where
  cmdReady   : Bool
  err        : BitVec 4
  status     : Byte
  validState : Bool
  tag        : Byte
  word       : Word
  aux        : Word
  terr       : Option TErr
  txnCount   : BitVec 9
deriving DecidableEq, Repr

/-- What the host observes (10 R40). -/
def State.response (s : State) : ResponsePort where
  cmdReady := s.cmdReady
  err := s.err.code
  status := s.resStatus
  validState := s.resValid
  tag := s.resTag
  word := s.resWord
  aux := s.resAux
  terr := s.terr
  txnCount := s.txnCount

end Sys2Proof.Machine
end

