-- ==== Sys2Proof/Machine/Ops.lean ====
section
/-! DEFINITION. The operations the meanings share: ending a command in an error (60 R204, the block's "trap entry"; there
is no return from it, 60 R211), reading and writing the map, the action buffer and the transient state, the checks that
raise an error, issuing a transaction (42 R161), and `Reset` (70 R230). -/

namespace Sys2Proof.Machine

/-! ### Errors -/

/-- `raise E`: `ERR <- E; FSM <- IDLE`, and nothing else changes (60 R204). -/
def State.raise (s : State) (e : ErrCode) : State := { s with err := e, fsm := .idle }

/-- `ERR <- TRANSPORT_ERROR; TERR <- e; FSM <- IDLE` (42 R164). -/
def State.raiseTransport (s : State) (e : TErr) : State :=
  { s with err := .transportError, terr := some e, fsm := .idle }

/-- A command ends in the error `e`. -/
def failWith (e : ErrCode) (s : State) : Result := .next (s.raise e)

/-- A command ends in success in the state `s`: `ERR <- NONE`. -/
def complete (s : State) : Result := .next s.succeed

/-! ### Map, action buffer, transient state -/

/-- `MAP[k].WORD <- v`; the tag is kept (10 R36). -/
def State.setMapWord (s : State) (k : Nat) (v : Word) : State :=
  { s with map := s.map.modify k fun m => { m with word := v } }

/-- `ACT[k] <- e` (42 R167). -/
def State.setAct (s : State) (k : Nat) (e : Action) : State := { s with act := s.act.set k e }

/-- `ACT[k].WORD <- v`; valid bit, kind and tag are kept (42 R171, D32). -/
def State.setActWord (s : State) (k : Nat) (v : Word) : State :=
  { s with act := s.act.modify k fun e => { e with word := v } }

/-- `RES_TAG <- tag; RES_WORD <- w; RES_VALID <- 1` (41 R141, 42 R165, R168). -/
def State.setRes (s : State) (tag : Byte) (w : Word) : State :=
  { s with resTag := tag, resWord := w, resValid := true }

/-- `RES_WORD <- w` (41 R138, 40 R119). -/
def State.setResWord (s : State) (w : Word) : State := { s with resWord := w }

/-- `RES_AUX <- w` (10 R33). -/
def State.setAux (s : State) (w : Word) : State := { s with resAux := w }

/-- `RES_STATUS <- st` (10 R31). -/
def State.setStatus (s : State) (st : Byte) : State := { s with resStatus := st }

/-- `for k < N_REGS: MAP[k].WORD <- CATALOG[k].default` (41 R142). -/
def State.mapDefaults (s : State) : State :=
  { s with map := List.zipWith (fun m e => { m with word := e.default }) s.map s.cfg.catalog }

/-! ### When a step is enabled -/

/-- A `HostCmd` step: enabled only when `FSM = IDLE` (00 R16). While `FSM` is ISSUE or WAIT a command waits; "it is not
lost and it raises no error" (30 R92; log 7). A state with an internal fault stops (60 R218). -/
def whenIdle (s : State) (f : State → Result) : Result :=
  match s.internalFault with
  | some e => .fault e
  | none => if s.fsm = .idle then f s else .next s

/-- An `Issue` step: enabled only when `FSM = ISSUE` (00 R16; log 8). -/
def whenIssue (s : State) (f : State → Result) : Result :=
  match s.internalFault with
  | some e => .fault e
  | none => if s.fsm = .issue then f s else .refused .issueNotEnabled

/-! ### Checks that raise an error, in the order 60 R209 makes them -/

/-- `k <- slot(a); if k = UNKNOWN: raise UNKNOWN_ADDRESS(a)` (60 R201). -/
def withSlot (a : Byte) (s : State) (f : Nat → Result) : Result :=
  match s.cfg.slot a with
  | none => failWith .unknownAddress s
  | some k => f k

/-- `if f >= nf(k): raise BAD_FIELD(f)`, and the field otherwise (60 R207, 40 R115). -/
def withField (k : Nat) (f : Byte) (s : State) (g : FieldDesc → Result) : Result :=
  match s.cfg.fmux k f.toNat with
  | none => failWith .badField s
  | some d => g d

/-- `if RES_VALID = 0 or RES_TAG != a: raise UNEXPECTED_ADDRESS` (60 R202). -/
def withRes (a : Byte) (s : State) (f : Result) : Result :=
  if s.resHolds a then f else failWith .unexpectedAddress s

/-- Slot `k` of the map. The map has every slot of the catalog (10 R36); one that lacks it is an internal fault. -/
def withMapSlot (k : Nat) (s : State) (f : MapSlot → Result) : Result :=
  match s.map[k]? with
  | none => .fault .mapTagMismatch
  | some m => f m

/-! ### Accepting a transaction command, issuing a transaction, reset -/

/-- What the `HostCmd` steps of READ_REG, WRITE_REG and BULK have in common: `CUR_OP <- op; SEQ_I <- 0; SEQ_TRAIL <- 0;
TXN_COUNT <- 0; FSM <- ISSUE` (42 R165, R166, R169). -/
def State.accept (s : State) (op : BitVec 4) : State :=
  { s with curOp := op, seqI := 0#9, seqTrail := false, txnCount := 0#9, fsm := .issue }

/-- The `Issue` step's effect for a frame: `TX_ABYTE`, `TX_DATA`, `TXN_COUNT + 1`, the frame handed to the transport,
`FSM <- WAIT` (42 R161). -/
def State.issue (s : State) (f : WireFrame) : State :=
  { s with txAbyte := f.abyte, txData := f.word, txnCount := s.txnCount + 1#9, fsm := .wait,
           env := { s.env with wire := s.env.wire ++ [f] } }

/-- The `Reset` step: every register takes its reset value; the configuration and the environment are not the block's
(70 R230, R232). -/
def State.resetStep (s : State) : State := State.resetOf s.cfg s.env

end Sys2Proof.Machine
end

