-- ==== Sys2Proof/Machine/CatalogMap.lean ====
section
/-! DEFINITION. The catalog queries, the dynamic register state and the register map (41 R132 to R142). -/

namespace Sys2Proof.Machine

/-- ADDR_INFO a (41 R132). -/
def execAddrInfo (a : Byte) (s : State) : Result :=
  whenIdle s fun s =>
    match (s.cfg.slot a).bind s.cfg.info with
    | none => failWith .unknownAddress s
    | some w => complete (s.setAux w)

/-- ADDR_ENUM k (41 R133). -/
def execAddrEnum (k : Byte) (s : State) : Result :=
  whenIdle s fun s =>
    match s.cfg.info k.toNat with
    | none => failWith .badIndex s
    | some w => complete (s.setAux w)

/-- STATE_CHECK a (41 R137). -/
def execStateCheck (a : Byte) (s : State) : Result :=
  whenIdle s fun s => withSlot a s fun _ => withRes a s (complete s)

/-- STATE_SET a, v (41 R138). -/
def execStateSet (a : Byte) (v : Word) (s : State) : Result :=
  whenIdle s fun s => withSlot a s fun _ => withRes a s (complete (s.setResWord v))

/-- MAP_SET_STATE a, v (41 R139). -/
def execMapSetState (a : Byte) (v : Word) (s : State) : Result :=
  whenIdle s fun s => withSlot a s fun k => complete (s.setMapWord k v)

/-- MAP_STORE_RES (41 R140): the slot is that of the state's own tag, "never UNKNOWN". -/
def execMapStoreRes (s : State) : Result :=
  whenIdle s fun s =>
    if s.resValid then
      match s.cfg.slot s.resTag with
      | none => .fault .unknownTag
      | some k => complete (s.setMapWord k s.resWord)
    else failWith .unexpectedAddress s

/-- MAP_GET a (41 R141): the tag written is the slot's. -/
def execMapGet (a : Byte) (s : State) : Result :=
  whenIdle s fun s => withSlot a s fun k => withMapSlot k s fun m =>
    complete (s.setRes (m.tag.setWidth 8) m.word)

/-- MAP_DEFAULT (41 R142). -/
def execMapDefault (s : State) : Result :=
  whenIdle s fun s => complete s.mapDefaults

end Sys2Proof.Machine
end

