-- ==== Sys2Proof/Machine/Codec.lean ====
section
/-! DEFINITION. The codec commands (40 R116 to R119). -/

namespace Sys2Proof.Machine

/-- FIELD_GET a, f (40 R116). -/
def execFieldGet (a f : Byte) (s : State) : Result :=
  whenIdle s fun s => withSlot a s fun k => withField k f s fun d => withMapSlot k s fun m =>
    complete (s.setAux (fieldGet d m.word))

/-- FIELD_GET_RES a, f (40 R117): the tag check comes last. -/
def execFieldGetRes (a f : Byte) (s : State) : Result :=
  whenIdle s fun s => withSlot a s fun k => withField k f s fun d => withRes a s
    (complete (s.setAux (fieldGet d s.resWord)))

/-- FIELD_SET a, f, v (40 R118). -/
def execFieldSet (a f : Byte) (v : Word) (s : State) : Result :=
  whenIdle s fun s => withSlot a s fun k => withField k f s fun d => withMapSlot k s fun m =>
    complete (s.setMapWord k (fieldSet d m.word v))

/-- FIELD_SET_RES a, f, v (40 R119). -/
def execFieldSetRes (a f : Byte) (v : Word) (s : State) : Result :=
  whenIdle s fun s => withSlot a s fun k => withField k f s fun d => withRes a s
    (complete (s.setResWord (fieldSet d s.resWord v)))

end Sys2Proof.Machine
end

