-- ==== Sys2Proof/Machine/Protocol.lean ====
section
/-! DEFINITION. The SPI protocol engine: the `HostCmd` steps of READ_REG, WRITE_REG, ACTION_WRITE, ACTION_READ and BULK
(42 R165 to R169), the two wire frames (the `Issue` step, 42 R161), and the `Reply` step (42 R163 to R166, R171, R172). -/

namespace Sys2Proof.Machine

/-! ### Commands -/

/-- READ_REG a, its `HostCmd` step (42 R165). -/
def execReadReg (a : Byte) (s : State) : Result :=
  whenIdle s fun s => withSlot a s fun _ =>
    if s.cfg.readable a then .next { s.accept opReadReg with curAddr := a }
    else failWith .accessDenied s

/-- WRITE_REG a, v, its `HostCmd` step (42 R166). -/
def execWriteReg (a : Byte) (v : Word) (s : State) : Result :=
  whenIdle s fun s => withSlot a s fun _ =>
    if s.cfg.writable a then .next { s.accept opWriteReg with curAddr := a, curData := v }
    else failWith .accessDenied s

/-- ACTION_WRITE k, kind, a, v (42 R167): BAD_INDEX comes before UNKNOWN_ADDRESS; there is no access-mode check. -/
def execActionWrite (k : Byte) (kind : ActKind) (a : Byte) (v : Word) (s : State) : Result :=
  whenIdle s fun s =>
    if k.toNat < s.cfg.maxActions then
      withSlot a s fun _ => complete (s.setAct k.toNat { valid := true, kind := kind, tag := a, word := v })
    else failWith .badIndex s

/-- ACTION_READ k (42 R168). -/
def execActionRead (k : Byte) (s : State) : Result :=
  whenIdle s fun s =>
    match s.act[k.toNat]? with
    | none => failWith .badIndex s
    | some e =>
      if e.valid then
        complete ((s.setRes e.tag e.word).setAux ((BitVec.ofBool (bitOfKind e.kind)).setWidth 32))
      else failWith .badIndex s

/-- Entries `0 .. n-1` of the buffer exist and hold actions (42 R169). -/
def State.actionsValid (s : State) (n : Nat) : Bool :=
  decide (n ≤ s.cfg.maxActions) && (s.act.take n).all (·.valid)

/-- BULK n, its `HostCmd` step (42 R169); `n = 0` completes at once (42 R174). -/
def execBulk (n : Byte) (s : State) : Result :=
  whenIdle s fun s =>
    if s.actionsValid n.toNat then
      if n = 0#8 then complete { s with txnCount := 0#9 }
      else .next { s.accept opBulk with seqN := n }
    else failWith .badIndex s

/-! ### Wire frames -/

/-- READ_FRAME a: one read-framed transaction is handed to the transport, its data phase `READ_FILL` (30 R83, 42 R161). -/
def execReadFrame (a : Byte) (s : State) : Result :=
  whenIssue s fun s => .next (s.issue (mkFrame (readAbyte a) readFill))

/-- WRITE_FRAME a, v: one write-framed transaction is handed to the transport (30 R82, 42 R161). -/
def execWriteFrame (a : Byte) (v : Word) (s : State) : Result :=
  whenIssue s fun s => .next (s.issue (mkFrame (writeAbyte a) v))

/-! ### The `Reply` step -/

/-- `Reply(OK(st, rx))` of a READ_REG (42 R165). -/
def State.readRegReply (s : State) (st : Byte) (rx : Word) : Result :=
  match s.seqI.toNat with
  | 0 => .next { s with seqI := 1#9, fsm := .issue }
  | 1 => .next { (s.setStatus st).setRes s.curAddr rx with err := .none, fsm := .idle }
  | _ => .fault .sequencerState

/-- `Reply(OK(st, rx))` of a WRITE_REG: `rx` is ignored (42 R166). -/
def State.writeRegReply (s : State) (st : Byte) : Result :=
  .next { s.setStatus st with err := .none, fsm := .idle }

/-- Resolve action `i - 1` with the data of transaction `i`, if there is one and it is a read (42 R171). -/
def State.resolvePrevious (s : State) (i : Nat) (rx : Word) : State :=
  match i with
  | 0 => s
  | j + 1 =>
    match s.act[j]? with
    | some e => if e.kind = .read then s.setActWord j rx else s
    | none => s

/-- After the transaction of the last action `j = SEQ_N - 1`: the trailing transaction if it is a read, else the end
(42 R172). -/
def State.bulkEnd (s : State) (j : Nat) (st : Byte) : Result :=
  match s.act[j]? with
  | none => .fault .sequencerState
  | some e =>
    match e.kind with
    | .read => .next { s with seqTrail := true, seqI := s.seqN.setWidth 9, fsm := .issue }
    | .write => .next { s.setStatus st with err := .none, fsm := .idle }

/-- `Reply(OK(st, rx))` of a BULK (42 R171, R172). -/
def State.bulkReply (s : State) (st : Byte) (rx : Word) : Result :=
  if s.seqTrail then
    match s.seqN.toNat with
    | 0 => .fault .sequencerState
    | j + 1 =>
      match s.act[j]? with
      | none => .fault .sequencerState
      | some _ => .next { (s.setActWord j rx).setStatus st with err := .none, fsm := .idle }
  else
    let i := s.seqI.toNat
    if i + 1 < s.seqN.toNat then
      .next { s.resolvePrevious i rx with seqI := s.seqI + 1#9, fsm := .issue }
    else if i + 1 = s.seqN.toNat then (s.resolvePrevious i rx).bulkEnd i st
    else .fault .sequencerState

/-- `Reply(OK(st, rx))`: the rule of the command in progress, and "no other continuation exists" (42 R163). -/
def State.replyOk (s : State) (st : Byte) (rx : Word) : Result :=
  if s.curOp = opReadReg then s.readRegReply st rx
  else if s.curOp = opWriteReg then s.writeRegReply st
  else if s.curOp = opBulk then s.bulkReply st rx
  else .fault .sequencerState

/-- The `Reply` step (42 R161): `OK(st, [b0, b1, b2, b3])` gives `rx = unbe32([b0, b1, b2, b3])`; `ERR(e)` ends the
command (42 R164). -/
def State.reply (s : State) : Reply → Result
  | .ok st b0 b1 b2 b3 => s.replyOk st (unbe32 b0 b1 b2 b3)
  | .err e => .next (s.raiseTransport e)

end Sys2Proof.Machine
end

