-- ==== Sys2Proof/Machine/Dispatch.lean ====
section
/-! DEFINITION. The meaning of every instruction, one arm each. -/

namespace Sys2Proof.Machine

def exec (i : Instr) (s : State) : Host.Outcome State Fault Refusal :=
  match i with
  | .readReg a => Sys2Proof.Machine.execReadReg a s
  | .writeReg a v => Sys2Proof.Machine.execWriteReg a v s
  | .bulk n => Sys2Proof.Machine.execBulk n s
  | .actionWrite k kind a v => Sys2Proof.Machine.execActionWrite k kind a v s
  | .actionRead k => Sys2Proof.Machine.execActionRead k s
  | .mapSetState a v => Sys2Proof.Machine.execMapSetState a v s
  | .mapStoreRes => Sys2Proof.Machine.execMapStoreRes s
  | .mapGet a => Sys2Proof.Machine.execMapGet a s
  | .mapDefault => Sys2Proof.Machine.execMapDefault s
  | .stateCheck a => Sys2Proof.Machine.execStateCheck a s
  | .stateSet a v => Sys2Proof.Machine.execStateSet a v s
  | .fieldGet a f => Sys2Proof.Machine.execFieldGet a f s
  | .fieldGetRes a f => Sys2Proof.Machine.execFieldGetRes a f s
  | .fieldSet a f v => Sys2Proof.Machine.execFieldSet a f v s
  | .fieldSetRes a f v => Sys2Proof.Machine.execFieldSetRes a f v s
  | .addrInfo a => Sys2Proof.Machine.execAddrInfo a s
  | .addrEnum k => Sys2Proof.Machine.execAddrEnum k s
  | .readFrame a => Sys2Proof.Machine.execReadFrame a s
  | .writeFrame a v => Sys2Proof.Machine.execWriteFrame a v s

end Sys2Proof.Machine
end

