-- ==== Sys2Proof/Machine/Engine.lean ====
section
/-! DEFINITION. The four kinds of step of 00 R16, over the environment held in the state: a `HostCmd` step runs the command
at the port, an `Issue` step runs the wire frame FRAME(state), a `Reply` step takes the transport's result, a `Reset` step
resets. Where the environment gives nothing to do, the block waits (60 R215, 70 R230). -/

namespace Sys2Proof.Machine

/-- The command list after the pair at the port has been accepted. -/
def State.withCmds (s : State) (l : List (Word × Word)) : State := { s with env := { s.env with hostCmds := l } }

/-- The results the transport has still to deliver. -/
def State.withReplies (s : State) (l : List Reply) : State := { s with env := { s.env with replies := l } }

/-- The reset line's coming values. -/
def State.withResetLine (s : State) (l : List Bool) : State := { s with env := { s.env with resetLine := l } }

/-- A decoded instruction runs; a word that is not a command raises ILLEGAL_COMMAND (60 R205). -/
def runDecoded (c : Encoded) (s : State) : Result :=
  match decode c with
  | .ok i => exec i s
  | .error _ => failWith .illegalCommand s

/-- The `HostCmd` step: the pair at the port is accepted (30 R92). With no pair presented the block waits. -/
def State.hostCmdStep (s : State) : Result :=
  match s.env.hostCmds with
  | [] => .next s
  | (w, d) :: rest => runDecoded (.cmd w d) (s.withCmds rest)

/-- The `Issue` step: the frame FRAME(state) is issued (42 R161). -/
def State.issueStep (s : State) : Result :=
  match s.frame with
  | none => .fault .sequencerState
  | some f => runDecoded (.frame f) s

/-- The `Reply` step; with no result delivered the block waits (60 R215). -/
def State.replyStep (s : State) : Result :=
  match s.env.replies with
  | [] => .next s
  | r :: rest => (s.withReplies rest).reply r

/-- A step with `Reset` not asserted: the one kind of step `FSM` enables (00 R16). -/
def State.engineStep (s : State) : Result :=
  match s.internalFault with
  | some e => .fault e
  | none =>
    match s.fsm with
    | .idle => s.hostCmdStep
    | .issue => s.issueStep
    | .wait => s.replyStep
    | .reserved3 => .fault .fsmReserved

/-- One step. `Reset` is "enabled in every state" (70 R230) and comes first (log 5). -/
def State.nextStep (s : State) : Result :=
  match s.env.resetLine with
  | [] => s.engineStep
  | false :: rest => (s.withResetLine rest).engineStep
  | true :: rest => .next (s.withResetLine rest).resetStep

/-- The state in which the very next step runs an encoded instruction (log 13): a command is put at the port of an idle
block; a frame is made FRAME(state) of a block about to issue, through the registers of the single read or write that
sends it. `Reset` is not asserted. -/
def State.withFetched (s : State) : Encoded → State
  | .cmd w d => { s with fsm := .idle, env := { s.env with hostCmds := (w, d) :: s.env.hostCmds, resetLine := [] } }
  | .frame f =>
    { s with fsm := .issue, curOp := if f.abyte.getLsbD 7 then opWriteReg else opReadReg,
             curAddr := readAbyte f.abyte, curData := f.word, env := { s.env with resetLine := [] } }

end Sys2Proof.Machine
end

