-- ==== Sys2Proof/Machine/Step.lean ====
section
/-! DEFINITION. The machine's step (Engine.lean holds what it does) and where the host places an instruction. -/

namespace Sys2Proof.Machine

/-- One step of the machine. -/
def step (s : State) : Host.Outcome State Fault Refusal := s.nextStep

/-- The instruction whose bits are `w` stands where the next step fetches it (log 12, 13). -/
def State.withFetchWord (s : State) (nbits w : Nat) : State := s.withFetched (encodedOfTableWord nbits w)

end Sys2Proof.Machine
end

