-- ==== Sys2Proof/Machine/Chip.lean ====
section
/-! DEFINITION. The chip's side of the wire: the reference model of 42 R160, an assumption about the environment and not
state of the block (10 R43). Claims about what a result means on the chip take it as a hypothesis. -/

namespace Sys2Proof.Machine

/-- The chip's read-ahead latch: `pending : none | some(a)` (42 R160). -/
structure Chip where
  pending : Option (BitVec 7)
deriving DecidableEq, Repr

/-- The latch after a transaction: armed by a read frame, empty after a write frame (42 R160). -/
def Chip.after (_c : Chip) (f : WireFrame) : Chip :=
  { pending := if f.abyte.getLsbD 7 then none else some (f.abyte.setWidth 7) }

/-- The data the chip may return in a transaction: `V(a)` if a read of `a` is pending, and anything otherwise (42 R160).
`v` gives the chip's values at this transaction, a draw. -/
def Chip.mayReturn (c : Chip) (v : BitVec 7 → Word) (rx : Word) : Prop := ∀ a, c.pending = some a → rx = v a

/-- A session's transactions and the data received in them agree with the chip; `v t` gives its values at
transaction `t`. -/
def Chip.agrees (c : Chip) (v : Nat → BitVec 7 → Word) : (t : Nat) → List (WireFrame × Word) → Prop
  | _, [] => True
  | t, (f, rx) :: rest => c.mayReturn (v t) rx ∧ (c.after f).agrees v (t + 1) rest

end Sys2Proof.Machine
end

