-- ==== Sys2Proof/Machine/Pseudo.lean ====
section
/-! DEFINITION. The pseudo-instructions of 30 R100 as lists of commands, running a list of commands that issue no
transaction, and the assembler line of 30 R99. -/

namespace Sys2Proof.Machine

/-- READ_INTO_MAP a (30 R100). -/
def readIntoMap (a : Byte) : List Instr := [.readReg a, .mapStoreRes]

/-- The `FIELD_SET a, j, vj` of ENCODE, from field `j` on. -/
def fieldSets (a : Byte) : Nat → List Word → List Instr
  | _, [] => []
  | j, v :: vs => .fieldSet a (BitVec.ofNat 8 j) v :: fieldSets a (j + 1) vs

/-- ENCODE a, (v0, ..., vm) (30 R100). -/
def encodeInto (a : Byte) (vs : List Word) : List Instr := .mapSetState a 0#32 :: fieldSets a 0 vs

/-- WRITE_FROM_MAP a, where `v` is the `rsp_word` the host read after MAP_GET (30 R100). -/
def writeFromMap (a : Byte) (v : Word) : List Instr := [.mapGet a, .writeReg a v]

/-- SYNC_FIELD a, f, v (30 R100); `w` is the `rsp_word` read on the way. -/
def syncField (a f : Byte) (v w : Word) : List Instr := .fieldSet a f v :: writeFromMap a w

/-- Run commands one after another, each from the state the one before left; for commands that complete in their one
`HostCmd` step (00 R16). -/
def execAll : List Instr → State → Result
  | [], s => .next s
  | i :: is, s =>
    match exec i s with
    | .next s' => execAll is s'
    | .fault e => .fault e
    | .refused r => .refused r

/-- A number in hexadecimal with `0x` (30 R99). -/
def hexNumeral (n : Nat) : String := "0x" ++ String.ofList (Nat.toDigits 16 n)

/-- `R` or `W` for KIND 0 or 1 (30 R99). -/
def kindLetter : ActKind → String
  | .read => "R"
  | .write => "W"

/-- The operands of an instruction in the order 30 R99 gives them, as text. -/
def operandTexts : Instr → List String
  | .readReg a => [hexNumeral a.toNat]
  | .writeReg a v => [hexNumeral a.toNat, hexNumeral v.toNat]
  | .bulk n => [hexNumeral n.toNat]
  | .actionWrite k kind a v => [hexNumeral k.toNat, kindLetter kind, hexNumeral a.toNat, hexNumeral v.toNat]
  | .actionRead k => [hexNumeral k.toNat]
  | .mapSetState a v => [hexNumeral a.toNat, hexNumeral v.toNat]
  | .mapStoreRes => []
  | .mapGet a => [hexNumeral a.toNat]
  | .mapDefault => []
  | .stateCheck a => [hexNumeral a.toNat]
  | .stateSet a v => [hexNumeral a.toNat, hexNumeral v.toNat]
  | .fieldGet a f => [hexNumeral a.toNat, hexNumeral f.toNat]
  | .fieldGetRes a f => [hexNumeral a.toNat, hexNumeral f.toNat]
  | .fieldSet a f v => [hexNumeral a.toNat, hexNumeral f.toNat, hexNumeral v.toNat]
  | .fieldSetRes a f v => [hexNumeral a.toNat, hexNumeral f.toNat, hexNumeral v.toNat]
  | .addrInfo a => [hexNumeral a.toNat]
  | .addrEnum k => [hexNumeral k.toNat]
  | .readFrame a => [hexNumeral a.toNat]
  | .writeFrame a v => [hexNumeral a.toNat, hexNumeral v.toNat]

/-- An assembler line: `MNEMONIC operand, operand, ...` (30 R99). -/
def asmLine (i : Instr) : String :=
  match operandTexts i with
  | [] => i.mnemonic
  | os => i.mnemonic ++ " " ++ ", ".intercalate os

end Sys2Proof.Machine
end

