-- ==== Sys2Proof/Machine/Sequential.lean ====
section
/-! DEFINITION. BULK as one sequential program over the transport's results (42 R169), the second form the spec gives of
it; 42 R183 says that the steps of Engine.lean end in the same state. -/

namespace Sys2Proof.Machine

/-- What a `TXN` of the sequential program gives: the state and `(status, rx)`; or the end of the command by a transport
error; or no result at all, where the transport never answers. -/
inductive Txn where
  | ok (s : State) (status : Byte) (rx : Word)
  | failed (s : State)
  | unanswered
deriving DecidableEq, Repr

/-- `TXN(abyte, word)` (42 R161): the frame is issued, then the transport's next result is taken. -/
def State.txn (s : State) (f : WireFrame) : Txn :=
  let s1 := s.issue f
  match s1.env.replies with
  | [] => .unanswered
  | .ok st b0 b1 b2 b3 :: rest => .ok { s1 with env := { s1.env with replies := rest } } st (unbe32 b0 b1 b2 b3)
  | .err e :: rest => .failed ({ s1 with env := { s1.env with replies := rest } }.raiseTransport e)

/-- The end of the sequential program: `RES_STATUS <- s`, `ERR <- NONE`, `FSM <- IDLE`. -/
def State.bulkDone (s : State) (st : Byte) : State := { s.setStatus st with err := .none, fsm := .idle }

/-- `if ACT[n-1].KIND = READ: (s, rx) <- TXN(ACT[n-1].TAG, READ_FILL); ACT[n-1].WORD <- rx`, then the status (42 R169).
`last` is action `n - 1`. -/
def State.bulkTail (s : State) (n : Nat) (last : Action) (st : Byte) : Option State :=
  match last.kind with
  | .write => some (s.bulkDone st)
  | .read =>
    match { s with seqTrail := true, seqI := BitVec.ofNat 9 n }.txn (mkFrame last.tag readFill) with
    | .ok s' st' rx => some ((s'.setActWord (n - 1) rx).bulkDone st')
    | .failed s' => some s'
    | .unanswered => none

/-- The loop `for i in 0 .. n-1` from index `i` on, with `todo` actions still to send (42 R169). -/
def State.bulkLoop (n : Nat) : (todo i : Nat) → State → Option State
  | 0, _, _ => none
  | todo + 1, i, s =>
    match s.act[i]? with
    | none => none
    | some e =>
      match { s with seqI := BitVec.ofNat 9 i }.txn e.frame with
      | .failed s' => some s'
      | .unanswered => none
      | .ok s' st rx =>
        match todo with
        | 0 => (s'.resolvePrevious i rx).bulkTail n e st
        | todo' + 1 => State.bulkLoop n (todo' + 1) (i + 1) (s'.resolvePrevious i rx)

/-- BULK n as a sequential program, from the state after its acceptance; `n >= 1` (42 R169). None where the transport
leaves a transaction unanswered. -/
def State.bulkProgram (s : State) (n : Byte) : Option State :=
  State.bulkLoop n.toNat n.toNat 0 { s.accept opBulk with seqN := n }

end Sys2Proof.Machine
end

