-- ==== Sys2Proof/Safety.lean ====
section
/-! DEFINITION. What a safe run is: the states the rules can reach satisfy an invariant, and from such a state no step
faults or refuses (60 R218: "A model proves the fault unreachable"). Also runs of several steps, as claims use them. -/

namespace Sys2Proof.Machine

/-- `k` steps, ending at the first fault or refusal. -/
def runFor : Nat → State → Result
  | 0, s => .next s
  | k + 1, s =>
    match step s with
    | .next s' => runFor k s'
    | .fault e => .fault e
    | .refused r => .refused r

/-- A state in which a command runs: no internal fault (60 R218), and `cmd_ready = 1` (30 R92). -/
structure State.Ready (s : State) : Prop where
  noFault : s.internalFault = none
  idle    : s.fsm = .idle

/-- `Reset` is not asserted at the coming step. -/
def State.noReset (s : State) : Prop := s.env.resetLine.head? ≠ some true

/-- The state the coming step works on where `Reset` is not asserted: the reset line has moved on by one. -/
def State.ticked (s : State) : State := s.withResetLine s.env.resetLine.tail

/-- The coming step accepts the instruction `i` from the command port (30 R92). -/
def State.accepts (s : State) (i : Instr) : Prop :=
  s.fsm = .idle ∧ ∃ w d rest, s.env.hostCmds = (w, d) :: rest ∧ decode (.cmd w d) = .ok i

/-- The coming step takes an OK result of the transport. -/
def State.takesOk (s : State) : Prop := s.fsm = .wait ∧ ∃ st b0 b1 b2 b3, s.env.replies.head? = some (.ok st b0 b1 b2 b3)

/-- The coming step takes an error of the transport. -/
def State.takesErr (s : State) : Prop := s.fsm = .wait ∧ ∃ e, s.env.replies.head? = some (.err e)

/-- An answer with its error payload, if any, exchanged by `f`. -/
def Reply.mapTErr (f : TErr → TErr) : Reply → Reply
  | .ok st b0 b1 b2 b3 => .ok st b0 b1 b2 b3
  | .err e => .err (f e)

/-- The state with every error payload, latched or still to be delivered, exchanged by `f`. -/
def State.mapTErr (s : State) (f : TErr → TErr) : State :=
  { s with terr := s.terr.map f, env := { s.env with replies := s.env.replies.map (Reply.mapTErr f) } }

/-- An outcome with the error payloads of its next state exchanged by `f`. -/
def mapTErrOf (f : TErr → TErr) : Result → Result
  | .next t => .next (t.mapTErr f)
  | .fault e => .fault e
  | .refused r => .refused r

/-- The word is a command of opcode `op`, its reserved bits clear (30 R87, R88). -/
def isCommandWord (w : Word) (op : BitVec 4) : Prop := cmdRsv1 w = 0 ∧ cmdRsv0 w = 0 ∧ cmdOp w = op

/-- An OK result with its data as one word. -/
def okReply (st : Byte) (rx : Word) : Reply :=
  .ok st (rx.extractLsb' 24 8) (rx.extractLsb' 16 8) (rx.extractLsb' 8 8) (rx.extractLsb' 0 8)

/-- The error codes a command may end in in its `HostCmd` step (60 R200). -/
def errorsOf : Instr → List ErrCode
  | .readReg _ => [.unknownAddress, .accessDenied]
  | .writeReg _ _ => [.unknownAddress, .accessDenied]
  | .bulk _ => [.badIndex]
  | .actionWrite _ _ _ _ => [.badIndex, .unknownAddress]
  | .actionRead _ => [.badIndex]
  | .mapSetState _ _ => [.unknownAddress]
  | .mapStoreRes => [.unexpectedAddress]
  | .mapGet _ => [.unknownAddress]
  | .mapDefault => []
  | .stateCheck _ => [.unknownAddress, .unexpectedAddress]
  | .stateSet _ _ => [.unknownAddress, .unexpectedAddress]
  | .fieldGet _ _ => [.unknownAddress, .badField]
  | .fieldGetRes _ _ => [.unknownAddress, .badField, .unexpectedAddress]
  | .fieldSet _ _ _ => [.unknownAddress, .badField]
  | .fieldSetRes _ _ _ => [.unknownAddress, .badField, .unexpectedAddress]
  | .addrInfo _ => [.unknownAddress]
  | .addrEnum _ => [.badIndex]
  | .readFrame _ => []
  | .writeFrame _ _ => []

/-- The instruction is a wire frame, not a host command. -/
def isFrame (i : Instr) : Bool := decide (i.mnemonic ∈ ["READ_FRAME", "WRITE_FRAME"])

/-- The commands that write `MAP` (10 R36). -/
def writesMap (i : Instr) : Bool :=
  decide (i.mnemonic ∈ ["MAP_SET_STATE", "MAP_STORE_RES", "MAP_DEFAULT", "FIELD_SET"])

/-- The commands whose `HostCmd` step writes the transient state (10 R32; READ_REG writes it in its last `Reply`). -/
def writesRes (i : Instr) : Bool := decide (i.mnemonic ∈ ["MAP_GET", "ACTION_READ", "STATE_SET", "FIELD_SET_RES"])

/-- The commands that write `RES_AUX` (10 R33). -/
def writesAux (i : Instr) : Bool :=
  decide (i.mnemonic ∈ ["FIELD_GET", "FIELD_GET_RES", "ADDR_INFO", "ADDR_ENUM", "ACTION_READ"])

/-- The transaction commands (42). -/
def isTransaction (i : Instr) : Bool := decide (i.mnemonic ∈ ["READ_REG", "WRITE_REG", "BULK"])

/-- Transactions a BULK of `n >= 1` actions issues on success: `n`, and one more if the last is a read (42 R177). -/
def State.bulkTxns (s : State) (n : Nat) : Nat := n + if s.isReadAt (n - 1) then 1 else 0

/-- The frames a BULK of `n` actions puts on the wire, the trailing one included (42 R170). -/
def State.bulkFrames (s : State) (n : Nat) : List WireFrame :=
  (s.act.take n).map Action.frame ++
    match s.act[n - 1]? with
    | some e => if e.kind = .read then [e.frame] else []
    | none => []

/-- 1 while the current transaction is outstanding. -/
def State.outstanding (s : State) : Nat := if s.fsm = .wait then 1 else 0

/-- The sequencer of a READ_REG in progress (10 R28, 42 R165). -/
def State.readRegInv (s : State) : Prop :=
  s.cfg.readable s.curAddr = true ∧ s.seqI.toNat ≤ 1 ∧ s.seqTrail = false ∧
    s.txnCount.toNat = s.seqI.toNat + s.outstanding

/-- The sequencer of a WRITE_REG in progress (10 R28, 42 R166). -/
def State.writeRegInv (s : State) : Prop :=
  s.cfg.writable s.curAddr = true ∧ s.seqI.toNat = 0 ∧ s.seqTrail = false ∧ s.txnCount.toNat = s.outstanding

/-- The sequencer of a BULK in progress (10 R25, R26, R28, 42 R169 to R172). -/
def State.bulkInv (s : State) : Prop :=
  1 ≤ s.seqN.toNat ∧ s.actionsValid s.seqN.toNat = true ∧
    (s.seqTrail = false → s.seqI.toNat < s.seqN.toNat) ∧
    (s.seqTrail = true → s.seqI.toNat = s.seqN.toNat ∧ s.isReadAt (s.seqN.toNat - 1) = true) ∧
    s.txnCount.toNat = s.seqI.toNat + s.outstanding

/-- The invariant of the block: no internal fault (60 R218, 41 R146, 10 R37), the registers' ranges (10 R23, R25, R27, R30),
an error payload wherever one is meaningful (10 R35), and, while a transaction command is in progress, the sequencer of that command. -/
structure State.Inv (s : State) : Prop where
  noFault   : s.internalFault = none
  curAddr   : s.curAddr.toNat < 128
  seqN      : s.seqN.toNat ≤ s.cfg.maxActions
  seqI      : s.seqI.toNat ≤ 255
  txnCount  : s.txnCount.toNat ≤ 256
  terr      : s.err = .transportError → s.terr.isSome = true
  sequencer : s.fsm ≠ .idle →
    (s.curOp = opReadReg ∧ s.readRegInv) ∨ (s.curOp = opWriteReg ∧ s.writeRegInv) ∨ (s.curOp = opBulk ∧ s.bulkInv)

/-- A step that neither faults nor refuses. -/
def State.stepsOn (s : State) : Prop := ∃ t, step s = .next t

end Sys2Proof.Machine
end

