-- ==== Sys2Proof/Certificates/Slice0/Obligations.lean ====
section
/-! DEFINITION. The statements about this machine. Each docstring names the rules it formalises. A statement about a command
holds in every `Ready` state: no internal fault (60 R218) and `FSM = IDLE`, the condition under which a `HostCmd` step is
enabled (00 R16). Where a next state is given as an update `{ s with … }`, every register it does not name is unchanged:
that is the command's frame. The fields of `env` are the model's rendering of the host, the transport and the reset line
(log 4 to 6); what a statement says of them is bookkeeping and no rule of the spec. -/

open Sys2Proof Sys2Proof.Machine

/-! ### Encoding -/

/-- 30 R81 to R84, R87, R90, R94, R95: the decoder reads back every well-formed instruction from its encoding, with every
operand at every value. -/
def Obligations.DecodeOfEncodeIsIdentity : Prop := ∀ i : Instr, i.wf = true → decode (encode i) = .ok i

/-- 95 section 2.1, vectors VE1 to VE18 and VW2: words of the spec and what they decode to. -/
def Obligations.SpecWordsDecodeAsTheSpecSays : Prop :=
  decode (.cmd 0x00002101#32 0#32) = .ok (.readReg 0x21#8) ∧
  decode (.cmd 0x00002102#32 0xFFFFFF9C#32) = .ok (.writeReg 0x21#8 0xFFFFFF9C#32) ∧
  decode (.cmd 0x00030003#32 0#32) = .ok (.bulk 3#8) ∧
  decode (.cmd 0x01002104#32 0x100#32) = .ok (.actionWrite 0#8 .write 0x21#8 0x100#32) ∧
  decode (.cmd 0x00002106#32 0x100#32) = .ok (.mapSetState 0x21#8 0x100#32) ∧
  decode (.cmd 0x01000006#32 0#32) = .ok .mapStoreRes ∧
  decode (.cmd 0x01000409#32 0x12345678#32) = .ok (.stateSet 0x04#8 0x12345678#32) ∧
  decode (.cmd 0x01036C0B#32 0x15#32) = .ok (.fieldSetRes 0x6C#8 3#8 0x15#32) ∧
  decode (.cmd 0x0004000D#32 0#32) = .ok (.addrEnum 4#8) ∧
  decode (.frame ⟨0xEC#8, 0x14#8, 0x41#8, 0x01#8, 0x55#8⟩) = .ok (.writeFrame 0x6C#8 0x14410155#32)

/-- 30 R98: a command word decodes to exactly one command, whose row is the only row of the opcode table it matches, or it
is illegal, matches no row and raises ILLEGAL_COMMAND; every address byte decodes to exactly one frame. -/
def Obligations.CommandDecodingIsTotal : Prop :=
  (∀ w d : Word,
    (cmdRsv1 w = 0 ∧ cmdRsv0 w = 0 ∧ cmdOp w ∉ [0x0#4, 0xE#4, 0xF#4] →
      ∃ i, decode (.cmd w d) = .ok i ∧
        (commandRows.filter fun r => r.matches w).map (·.mnemonic) = [i.mnemonic]) ∧
    (¬ (cmdRsv1 w = 0 ∧ cmdRsv0 w = 0 ∧ cmdOp w ∉ [0x0#4, 0xE#4, 0xF#4]) →
      (∃ r, decode (.cmd w d) = .error r) ∧ (commandRows.filter fun r => r.matches w) = [] ∧
        ∀ s : State, runDecoded (.cmd w d) s = .next { s with err := .illegalCommand, fsm := .idle })) ∧
  (∀ f : WireFrame,
    (f.abyte.getLsbD 7 = true → decode (.frame f) = .ok (.writeFrame (f.abyte &&& 0x7F#8) f.word)) ∧
    (f.abyte.getLsbD 7 = false → decode (.frame f) = .ok (.readFrame (f.abyte &&& 0x7F#8))))

/-- 30 R89: command words that agree on the reserved bits, the opcode and the fields their command uses decode to the same
command, whatever their other fields and unused `cmd_data` hold. -/
def Obligations.UnusedCommandFieldsAreIgnored : Prop :=
  ∀ w w' d d' : Word, cmdRsv1 w = cmdRsv1 w' → cmdRsv0 w = cmdRsv0 w' → cmdOp w = cmdOp w' →
    (cmdOp w ∈ [0x1#4, 0x7#4, 0xC#4] → cmdAddr w = cmdAddr w' → decode (.cmd w d) = decode (.cmd w' d')) ∧
    (cmdOp w = 0x2#4 → cmdAddr w = cmdAddr w' → decode (.cmd w d) = decode (.cmd w' d)) ∧
    (cmdOp w ∈ [0x3#4, 0x5#4, 0xD#4] → cmdIdx w = cmdIdx w' → decode (.cmd w d) = decode (.cmd w' d')) ∧
    (cmdOp w = 0x8#4 → decode (.cmd w d) = decode (.cmd w' d')) ∧
    (cmdOp w = 0x6#4 → cmdKind w = true → cmdKind w' = true → decode (.cmd w d) = decode (.cmd w' d')) ∧
    (cmdOp w = 0x6#4 → cmdKind w = false → cmdKind w' = false → cmdAddr w = cmdAddr w' →
      decode (.cmd w d) = decode (.cmd w' d)) ∧
    (cmdOp w = 0x9#4 → cmdKind w = false → cmdKind w' = false → cmdAddr w = cmdAddr w' →
      decode (.cmd w d) = decode (.cmd w' d')) ∧
    (cmdOp w = 0x9#4 → cmdKind w = true → cmdKind w' = true → cmdAddr w = cmdAddr w' →
      decode (.cmd w d) = decode (.cmd w' d)) ∧
    (cmdOp w = 0xA#4 → cmdKind w = cmdKind w' → cmdIdx w = cmdIdx w' → cmdAddr w = cmdAddr w' →
      decode (.cmd w d) = decode (.cmd w' d'))

/-- 00 R14, 20 R66, 30 R84, R86: a frame's data bytes are the word's, most significant first, in the second of the two
transfers handed to the transport, and reading four bytes back gives the word. -/
def Obligations.DataPhaseIsBigEndian : Prop :=
  ∀ (b b0 b1 b2 b3 : Byte) (w : Word),
    unbe32 b0 b1 b2 b3 = b0 ++ b1 ++ b2 ++ b3 ∧
    be32 w = [w.extractLsb' 24 8, w.extractLsb' 16 8, w.extractLsb' 8 8, w.extractLsb' 0 8] ∧
    (mkFrame b w).bytes = b :: be32 w ∧ (mkFrame b w).transfers = [[b], be32 w] ∧
    unbe32 (w.extractLsb' 24 8) (w.extractLsb' 16 8) (w.extractLsb' 8 8) (w.extractLsb' 0 8) = w

/-! ### The codec -/

/-- 40 R111, R112: a field read and a field write, as the rules' formulas and bit by bit, with the corner cases the rules
list. -/
def Obligations.FieldReadAndWriteBitByBit : Prop :=
  ∀ (d : FieldDesc) (w v : Word), d.inWord = true →
    (fieldGet d w = (w >>> d.off) &&& mask d.width ∧
      (∀ j, j < d.width → (fieldGet d w).getLsbD j = w.getLsbD (d.off + j)) ∧
      (∀ j, d.width ≤ j → (fieldGet d w).getLsbD j = false) ∧
      (d.off = 0 → d.width = 32 → fieldGet d w = w)) ∧
    (fieldSet d w v = (w &&& ~~~(fmask d)) ||| ((v &&& mask d.width) <<< d.off) ∧
      (∀ j, j < 32 → (fieldSet d w v).getLsbD j =
        if d.off ≤ j ∧ j < d.off + d.width then v.getLsbD (j - d.off) else w.getLsbD j) ∧
      (d.width = 32 → fieldSet d w v = v) ∧
      (v = 0#32 → fieldSet d w v = w &&& ~~~(fmask d)) ∧
      fieldSet d w v = fieldSet d w (v &&& mask d.width))

/-- 40 R122: the two laws of a field write and a field read. -/
def Obligations.FieldReadAfterFieldWrite : Prop :=
  ∀ (d : FieldDesc) (w v : Word), d.inWord = true →
    fieldGet d (fieldSet d w v) = v &&& mask d.width ∧
    ∀ d' : FieldDesc, d'.inWord = true → d.disjoint d' = true → fieldGet d' (fieldSet d w v) = fieldGet d' w

/-- 40 R120: the codec round trip, for every layout of every catalog. -/
def Obligations.CodecRoundTrip : Prop :=
  ∀ (c : Config) (k : Nat) (vs : List Word), vs.length = c.nf k →
    decodeFields (c.layout k) (encodeFields (c.layout k) vs) =
      List.zipWith (fun d v => v &&& mask d.width) (c.layout k) vs ∧
    ((∀ p ∈ (c.layout k).zip vs, p.2 ≤ mask p.1.width) →
      decodeFields (c.layout k) (encodeFields (c.layout k) vs) = vs)

/-- 40 R121: encoding what was decoded keeps exactly the bits some field covers. -/
def Obligations.EncodeAfterDecodeKeepsFieldBits : Prop :=
  ∀ (c : Config) (k : Nat) (w : Word),
    encodeFields (c.layout k) (decodeFields (c.layout k) w) = w &&& fieldUnion (c.layout k)

/-! ### The address decoder -/

/-- 41 R130, 60 R201: `slot(a) = k` iff the entry at `k` has address `a` (so the `k` is unique), every `a >= 0x80` is
UNKNOWN, and every command with an ADDR operand raises UNKNOWN_ADDRESS for an unknown one and changes nothing else.
ACTION_WRITE checks its index first (60 R209). -/
def Obligations.AddressDecoder : Prop :=
  (∀ (c : Config) (a : Byte),
    (∀ k, c.slot a = some k ↔ ∃ e, c.catalog[k]? = some e ∧ e.addr.setWidth 8 = a) ∧
    (0x80#8 ≤ a → c.slot a = none)) ∧
  (∀ (s : State) (a x : Byte) (kind : ActKind) (v : Word), s.Ready → s.cfg.slot a = none →
    (∀ i ∈ [Instr.readReg a, .writeReg a v, .mapSetState a v, .mapGet a, .stateCheck a, .stateSet a v, .fieldGet a x,
        .fieldGetRes a x, .fieldSet a x v, .fieldSetRes a x v, .addrInfo a],
      exec i s = .next { s with err := .unknownAddress, fsm := .idle }) ∧
    (x.toNat < s.cfg.maxActions →
      exec (.actionWrite x kind a v) s = .next { s with err := .unknownAddress, fsm := .idle }))

/-! ### The codec commands -/

/-- 40 R116. -/
def Obligations.FieldGetReadsTheMapSlot : Prop :=
  (∀ w d, isCommandWord w 0xA#4 → cmdKind w = false →
    decode (.cmd w d) = .ok (.fieldGet (cmdAddr w) (cmdIdx w))) ∧
  ∀ (s : State) (a f : Byte), s.Ready →
    (s.cfg.slot a = none → exec (.fieldGet a f) s = .next { s with err := .unknownAddress, fsm := .idle }) ∧
    ∀ k, s.cfg.slot a = some k →
      (s.cfg.nf k ≤ f.toNat → exec (.fieldGet a f) s = .next { s with err := .badField, fsm := .idle }) ∧
      (f.toNat < s.cfg.nf k → ∃ d m, s.cfg.fmux k f.toNat = some d ∧ s.map[k]? = some m ∧
        exec (.fieldGet a f) s = .next { s with resAux := fieldGet d m.word, err := .none })

/-- 40 R117: the tag check comes last. -/
def Obligations.FieldGetResReadsTheTransientState : Prop :=
  (∀ w d, isCommandWord w 0xA#4 → cmdKind w = true →
    decode (.cmd w d) = .ok (.fieldGetRes (cmdAddr w) (cmdIdx w))) ∧
  ∀ (s : State) (a f : Byte), s.Ready →
    (s.cfg.slot a = none → exec (.fieldGetRes a f) s = .next { s with err := .unknownAddress, fsm := .idle }) ∧
    ∀ k, s.cfg.slot a = some k →
      (s.cfg.nf k ≤ f.toNat → exec (.fieldGetRes a f) s = .next { s with err := .badField, fsm := .idle }) ∧
      (f.toNat < s.cfg.nf k → (s.resValid = false ∨ s.resTag ≠ a) →
        exec (.fieldGetRes a f) s = .next { s with err := .unexpectedAddress, fsm := .idle }) ∧
      (f.toNat < s.cfg.nf k → s.resValid = true → s.resTag = a → ∃ d, s.cfg.fmux k f.toNat = some d ∧
        exec (.fieldGetRes a f) s = .next { s with resAux := fieldGet d s.resWord, err := .none })

/-- 40 R118: the slot's word changes in its field only; the tag, the other slots and everything else stay. -/
def Obligations.FieldSetWritesTheMapSlot : Prop :=
  (∀ w d, isCommandWord w 0xB#4 → cmdKind w = false →
    decode (.cmd w d) = .ok (.fieldSet (cmdAddr w) (cmdIdx w) d)) ∧
  ∀ (s : State) (a f : Byte) (v : Word), s.Ready →
    (s.cfg.slot a = none → exec (.fieldSet a f v) s = .next { s with err := .unknownAddress, fsm := .idle }) ∧
    ∀ k, s.cfg.slot a = some k →
      (s.cfg.nf k ≤ f.toNat → exec (.fieldSet a f v) s = .next { s with err := .badField, fsm := .idle }) ∧
      (f.toNat < s.cfg.nf k → ∃ d m, s.cfg.fmux k f.toNat = some d ∧ s.map[k]? = some m ∧
        exec (.fieldSet a f v) s =
          .next { s with map := s.map.set k { tag := m.tag, word := fieldSet d m.word v }, err := .none })

/-- 40 R119. -/
def Obligations.FieldSetResWritesTheTransientState : Prop :=
  (∀ w d, isCommandWord w 0xB#4 → cmdKind w = true →
    decode (.cmd w d) = .ok (.fieldSetRes (cmdAddr w) (cmdIdx w) d)) ∧
  ∀ (s : State) (a f : Byte) (v : Word), s.Ready →
    (s.cfg.slot a = none → exec (.fieldSetRes a f v) s = .next { s with err := .unknownAddress, fsm := .idle }) ∧
    ∀ k, s.cfg.slot a = some k →
      (s.cfg.nf k ≤ f.toNat → exec (.fieldSetRes a f v) s = .next { s with err := .badField, fsm := .idle }) ∧
      (f.toNat < s.cfg.nf k → (s.resValid = false ∨ s.resTag ≠ a) →
        exec (.fieldSetRes a f v) s = .next { s with err := .unexpectedAddress, fsm := .idle }) ∧
      (f.toNat < s.cfg.nf k → s.resValid = true → s.resTag = a → ∃ d, s.cfg.fmux k f.toNat = some d ∧
        exec (.fieldSetRes a f v) s = .next { s with resWord := fieldSet d s.resWord v, err := .none })

/-! ### Catalog queries, dynamic register state, register map -/

/-- 41 R131, R132, 00 R19: ADDR_INFO, with the INFO word bit by bit, bits 9:8 for each access mode. -/
def Obligations.AddrInfoReportsTheEntry : Prop :=
  (∀ w d, isCommandWord w 0xC#4 →
    decode (.cmd w d) = .ok (.addrInfo (cmdAddr w))) ∧
  ∀ (s : State) (a : Byte), s.Ready →
    (s.cfg.slot a = none → exec (.addrInfo a) s = .next { s with err := .unknownAddress, fsm := .idle }) ∧
    ∀ k, s.cfg.slot a = some k → ∃ w, exec (.addrInfo a) s = .next { s with resAux := w, err := .none } ∧
      w.extractLsb' 0 7 = a.setWidth 7 ∧ w.getLsbD 7 = false ∧ w.getLsbD 8 = s.cfg.readable a ∧
      w.getLsbD 9 = s.cfg.writable a ∧ w.extractLsb' 10 6 = 0#6 ∧ (w.extractLsb' 16 8).toNat = k ∧
      (w.extractLsb' 24 8).toNat = s.cfg.nf k ∧
      ∀ e, s.cfg.catalog[k]? = some e →
        (e.mode = .ro → w.extractLsb' 8 2 = 0b01#2) ∧ (e.mode = .wo → w.extractLsb' 8 2 = 0b10#2) ∧
        (e.mode = .rw → w.extractLsb' 8 2 = 0b11#2)

/-- 41 R133: ADDR_ENUM, and that enumerating lists the addresses in ascending order, each once. -/
def Obligations.AddrEnumListsTheCatalog : Prop :=
  (∀ w d, isCommandWord w 0xD#4 →
    decode (.cmd w d) = .ok (.addrEnum (cmdIdx w))) ∧
  (∀ (s : State) (k : Byte), s.Ready →
    (s.cfg.nRegs ≤ k.toNat → exec (.addrEnum k) s = .next { s with err := .badIndex, fsm := .idle }) ∧
    (∀ e, s.cfg.catalog[k.toNat]? = some e →
      exec (.addrEnum k) s = .next { s with resAux := infoWord k.toNat e, err := .none } ∧
      (infoWord k.toNat e).extractLsb' 0 7 = e.addr)) ∧
  (∀ (c : Config) (j k : Nat) (e e' : CatalogEntry), c.catalog[j]? = some e → c.catalog[k]? = some e' → j < k →
    e.addr < e'.addr)

/-- 41 R137: STATE_CHECK changes only ERR. -/
def Obligations.StateCheckComparesTheTag : Prop :=
  (∀ w d, isCommandWord w 0x9#4 → cmdKind w = false →
    decode (.cmd w d) = .ok (.stateCheck (cmdAddr w))) ∧
  ∀ (s : State) (a : Byte), s.Ready →
    (s.cfg.slot a = none → exec (.stateCheck a) s = .next { s with err := .unknownAddress, fsm := .idle }) ∧
    ((s.cfg.slot a).isSome = true → (s.resValid = false ∨ s.resTag ≠ a) →
      exec (.stateCheck a) s = .next { s with err := .unexpectedAddress, fsm := .idle }) ∧
    ((s.cfg.slot a).isSome = true → s.resValid = true → s.resTag = a →
      exec (.stateCheck a) s = .next { s with err := .none })

/-- 41 R138: STATE_SET keeps the tag and RES_VALID. -/
def Obligations.StateSetReplacesTheWord : Prop :=
  (∀ w d, isCommandWord w 0x9#4 → cmdKind w = true →
    decode (.cmd w d) = .ok (.stateSet (cmdAddr w) d)) ∧
  ∀ (s : State) (a : Byte) (v : Word), s.Ready →
    (s.cfg.slot a = none → exec (.stateSet a v) s = .next { s with err := .unknownAddress, fsm := .idle }) ∧
    ((s.cfg.slot a).isSome = true → (s.resValid = false ∨ s.resTag ≠ a) →
      exec (.stateSet a v) s = .next { s with err := .unexpectedAddress, fsm := .idle }) ∧
    ((s.cfg.slot a).isSome = true → s.resValid = true → s.resTag = a →
      exec (.stateSet a v) s = .next { s with resWord := v, err := .none })

/-- 41 R139: MAP_SET_STATE writes the slot of the address and no other, whatever the access mode. -/
def Obligations.MapSetStateWritesTheSlot : Prop :=
  (∀ w d, isCommandWord w 0x6#4 → cmdKind w = false →
    decode (.cmd w d) = .ok (.mapSetState (cmdAddr w) d)) ∧
  ∀ (s : State) (a : Byte) (v : Word), s.Ready →
    (s.cfg.slot a = none → exec (.mapSetState a v) s = .next { s with err := .unknownAddress, fsm := .idle }) ∧
    ∀ k, s.cfg.slot a = some k → ∃ m, s.map[k]? = some m ∧
      exec (.mapSetState a v) s = .next { s with map := s.map.set k { tag := m.tag, word := v }, err := .none }

/-- 41 R140: MAP_STORE_RES stores under the state's own tag. -/
def Obligations.MapStoreResUsesTheTag : Prop :=
  (∀ w d, isCommandWord w 0x6#4 → cmdKind w = true → decode (.cmd w d) = .ok .mapStoreRes) ∧
  ∀ s : State, s.Ready →
    (s.resValid = false → exec .mapStoreRes s = .next { s with err := .unexpectedAddress, fsm := .idle }) ∧
    (s.resValid = true → ∃ k m, s.cfg.slot s.resTag = some k ∧ s.map[k]? = some m ∧
      exec .mapStoreRes s = .next { s with map := s.map.set k { tag := m.tag, word := s.resWord }, err := .none })

/-- 41 R141: MAP_GET copies the slot into the transient state under the address named; the map is not changed. -/
def Obligations.MapGetCopiesTheSlot : Prop :=
  (∀ w d, isCommandWord w 0x7#4 →
    decode (.cmd w d) = .ok (.mapGet (cmdAddr w))) ∧
  ∀ (s : State) (a : Byte), s.Ready →
    (s.cfg.slot a = none → exec (.mapGet a) s = .next { s with err := .unknownAddress, fsm := .idle }) ∧
    ∀ k, s.cfg.slot a = some k → ∃ m, s.map[k]? = some m ∧ m.tag.setWidth 8 = a ∧
      exec (.mapGet a) s = .next { s with resTag := a, resWord := m.word, resValid := true, err := .none }

/-- 41 R142: MAP_DEFAULT gives every slot its default; the map is then the one after Reset. -/
def Obligations.MapDefaultRestoresTheDefaults : Prop :=
  (∀ w d, isCommandWord w 0x8#4 → decode (.cmd w d) = .ok .mapDefault) ∧
  ∀ s : State, s.Ready →
    exec .mapDefault s = .next { s with map := (State.resetOf s.cfg s.env).map, err := .none } ∧
    ∀ (k : Nat) (e : CatalogEntry), s.cfg.catalog[k]? = some e →
      (State.resetOf s.cfg s.env).map[k]? = some (MapSlot.mk e.addr e.default)

/-- 41 R144: map totality, after Reset and after MAP_DEFAULT. -/
def Obligations.MapTotality : Prop :=
  ∀ (c : Config) (k : Nat) (e : CatalogEntry), c.catalog[k]? = some e →
    (∀ env, ∃ t, exec (.mapGet (e.addr.setWidth 8)) (State.resetOf c env) = .next t ∧ t.err = .none ∧
      t.resValid = true ∧ t.resTag = e.addr.setWidth 8) ∧
    (∀ s : State, s.Ready → s.cfg = c → ∃ t u, exec .mapDefault s = .next t ∧
      exec (.mapGet (e.addr.setWidth 8)) t = .next u ∧ u.err = .none ∧ u.resTag = e.addr.setWidth 8)

/-! ### Acceptance of the protocol commands, the action buffer -/

/-- 42 R165, its HostCmd step (60 R206): READ_REG is accepted for a readable address, the address of an entry of mode RO or
RW (00 R19), and touches no result register. -/
def Obligations.ReadRegIsAccepted : Prop :=
  (∀ w d, isCommandWord w 0x1#4 →
    decode (.cmd w d) = .ok (.readReg (cmdAddr w))) ∧
  (∀ (c : Config) (a : Byte), c.readable a = true ↔
    ∃ e ∈ c.catalog, e.addr.setWidth 8 = a ∧ (e.mode = .ro ∨ e.mode = .rw)) ∧
  ∀ (s : State) (a : Byte), s.Ready →
    (s.cfg.slot a = none → exec (.readReg a) s = .next { s with err := .unknownAddress, fsm := .idle }) ∧
    ((s.cfg.slot a).isSome = true → s.cfg.readable a = false →
      exec (.readReg a) s = .next { s with err := .accessDenied, fsm := .idle }) ∧
    (s.cfg.readable a = true → exec (.readReg a) s =
      .next { s with curOp := 0x1#4, curAddr := a, seqI := 0#9, seqTrail := false, txnCount := 0#9, fsm := .issue })

/-- 42 R166, its HostCmd step (60 R206); a writable address is that of an entry of mode WO or RW (00 R19). -/
def Obligations.WriteRegIsAccepted : Prop :=
  (∀ w d, isCommandWord w 0x2#4 →
    decode (.cmd w d) = .ok (.writeReg (cmdAddr w) d)) ∧
  (∀ (c : Config) (a : Byte), c.writable a = true ↔
    ∃ e ∈ c.catalog, e.addr.setWidth 8 = a ∧ (e.mode = .wo ∨ e.mode = .rw)) ∧
  ∀ (s : State) (a : Byte) (v : Word), s.Ready →
    (s.cfg.slot a = none → exec (.writeReg a v) s = .next { s with err := .unknownAddress, fsm := .idle }) ∧
    ((s.cfg.slot a).isSome = true → s.cfg.writable a = false →
      exec (.writeReg a v) s = .next { s with err := .accessDenied, fsm := .idle }) ∧
    (s.cfg.writable a = true → exec (.writeReg a v) s =
      .next { s with curOp := 0x2#4, curAddr := a, curData := v, seqI := 0#9, seqTrail := false, txnCount := 0#9,
                     fsm := .issue })

/-- 42 R167: ACTION_WRITE overwrites its entry whole and no other; there is no access-mode check. -/
def Obligations.ActionWriteFillsTheEntry : Prop :=
  (∀ w d, isCommandWord w 0x4#4 → decode (.cmd w d) =
    .ok (.actionWrite (cmdIdx w) (if cmdKind w then .write else .read) (cmdAddr w) d)) ∧
  ∀ (s : State) (k : Byte) (kind : ActKind) (a : Byte) (v : Word), s.Ready →
    (s.cfg.maxActions ≤ k.toNat →
      exec (.actionWrite k kind a v) s = .next { s with err := .badIndex, fsm := .idle }) ∧
    (k.toNat < s.cfg.maxActions → s.cfg.slot a = none →
      exec (.actionWrite k kind a v) s = .next { s with err := .unknownAddress, fsm := .idle }) ∧
    (k.toNat < s.cfg.maxActions → (s.cfg.slot a).isSome = true →
      ∃ t, exec (.actionWrite k kind a v) s = .next t ∧
        t = { s with act := s.act.set k.toNat { valid := true, kind := kind, tag := a, word := v }, err := .none } ∧
        t.act[k.toNat]? = some { valid := true, kind := kind, tag := a, word := v } ∧
        ∀ j, j ≠ k.toNat → t.act[j]? = s.act[j]?)

/-- 42 R168: ACTION_READ copies the entry into the transient state and its kind into RES_AUX. -/
def Obligations.ActionReadCopiesTheEntry : Prop :=
  (∀ w d, isCommandWord w 0x5#4 →
    decode (.cmd w d) = .ok (.actionRead (cmdIdx w))) ∧
  ∀ (s : State) (k : Byte), s.Ready →
    ((s.cfg.maxActions ≤ k.toNat ∨ ∃ e, s.act[k.toNat]? = some e ∧ e.valid = false) →
      exec (.actionRead k) s = .next { s with err := .badIndex, fsm := .idle }) ∧
    (∀ e, s.act[k.toNat]? = some e → e.valid = true → exec (.actionRead k) s =
      .next { s with resTag := e.tag, resWord := e.word, resValid := true,
                     resAux := if e.kind = .read then 0#32 else 1#32, err := .none })

/-- 42 R169, its HostCmd step, and R174: BULK checks the count, then the entries; `n = 0` completes at once. -/
def Obligations.BulkIsAccepted : Prop :=
  (∀ w d, isCommandWord w 0x3#4 →
    decode (.cmd w d) = .ok (.bulk (cmdIdx w))) ∧
  ∀ (s : State) (n : Byte), s.Ready →
    (s.cfg.maxActions < n.toNat → exec (.bulk n) s = .next { s with err := .badIndex, fsm := .idle }) ∧
    ((∃ j e, j < n.toNat ∧ s.act[j]? = some e ∧ e.valid = false) →
      exec (.bulk n) s = .next { s with err := .badIndex, fsm := .idle }) ∧
    (n = 0#8 → exec (.bulk n) s = .next { s with txnCount := 0#9, err := .none }) ∧
    (1 ≤ n.toNat → n.toNat ≤ s.cfg.maxActions → (∀ j, j < n.toNat → ∃ e, s.act[j]? = some e ∧ e.valid = true) →
      exec (.bulk n) s = .next { s with curOp := 0x3#4, seqN := n, seqI := 0#9, seqTrail := false, txnCount := 0#9,
                                        fsm := .issue })

/-! ### The wire frames: the Issue step -/

/-- 42 R161 (Issue) with 30 R82, R83: READ_FRAME hands the transport the frame of a read, its data phase READ_FILL;
WRITE_FRAME hands it the frame of a write. -/
def Obligations.WireFramesAreIssued : Prop :=
  ∀ (s : State) (a : Byte) (v : Word), s.internalFault = none → s.fsm = .issue → a < 0x80#8 →
    exec (.readFrame a) s =
      .next { s with txAbyte := a, txData := 0x00000000#32, txnCount := s.txnCount + 1#9, fsm := .wait,
                     env := { s.env with wire := s.env.wire ++ [⟨a, 0#8, 0#8, 0#8, 0#8⟩] } } ∧
    exec (.writeFrame a v) s =
      .next { s with txAbyte := a ||| 0x80#8, txData := v, txnCount := s.txnCount + 1#9, fsm := .wait,
                     env := { s.env with wire := s.env.wire ++ [⟨a ||| 0x80#8, v.extractLsb' 24 8, v.extractLsb' 16 8,
                       v.extractLsb' 8 8, v.extractLsb' 0 8⟩] } }

/-- 00 R16, 30 R92: while a transaction command is in progress a host command waits, changes nothing and stays presented; a
frame is refused unless `FSM = ISSUE` (the refusal is the model's own, log 8). -/
def Obligations.DisabledStepsWait : Prop :=
  (∀ (s : State) (i : Instr), s.internalFault = none →
    (isFrame i = false → s.fsm ≠ .idle → exec i s = .next s) ∧
    (isFrame i = true → s.fsm ≠ .issue → exec i s = .refused .issueNotEnabled)) ∧
  (∀ s t : State, s.noReset → s.fsm ≠ .idle → step s = .next t → t.env.hostCmds = s.env.hostCmds)

/-! ### Steps -/

/-- A step runs the decoded instruction (00 R16, 30 R92, 42 R161): with `Reset` not asserted and no internal fault, an idle
block runs the pair at the port, an issuing block the frame FRAME(state); `ticked` only moves the reset line on. -/
def Obligations.StepRunsTheDecodedInstruction : Prop :=
  ∀ (s : State) (i : Instr), s.internalFault = none → s.noReset →
    (∀ w d rest, s.fsm = .idle → s.env.hostCmds = (w, d) :: rest → decode (.cmd w d) = .ok i →
      step s = exec i (s.ticked.withCmds rest)) ∧
    (∀ f, s.fsm = .issue → s.frame = some f → decode (.frame f) = .ok i → step s = exec i s.ticked)

/-- 60 R205, 30 R88, R96: a reserved bit or opcode raises ILLEGAL_COMMAND, and the command changes nothing else (the pair
has left the port). -/
def Obligations.IllegalCommandChangesOnlyErr : Prop :=
  ∀ (s : State) (w d : Word) (rest : List (Word × Word)), s.Ready → s.env.resetLine = [] →
    s.env.hostCmds = (w, d) :: rest → (cmdRsv1 w ≠ 0 ∨ cmdRsv0 w ≠ 0 ∨ cmdOp w ∈ [0x0#4, 0xE#4, 0xF#4]) →
    step s = .next { s with err := .illegalCommand, fsm := .idle, env := { s.env with hostCmds := rest } }

/-- 42 R162, R170: FRAME(state). -/
def Obligations.FrameOfTheState : Prop :=
  ∀ s : State,
    (s.curOp = 0x1#4 → s.frame = some (mkFrame s.curAddr 0x00000000#32)) ∧
    (s.curOp = 0x2#4 → s.frame = some (mkFrame (s.curAddr ||| 0x80#8) s.curData)) ∧
    (s.curOp = 0x3#4 → s.seqTrail = true → 1 ≤ s.seqN.toNat → ∀ e, s.act[s.seqN.toNat - 1]? = some e →
      s.frame = some (mkFrame e.tag 0x00000000#32)) ∧
    (s.curOp = 0x3#4 → s.seqTrail = false → ∀ e, s.act[s.seqI.toNat]? = some e →
      (e.kind = .write → s.frame = some (mkFrame (e.tag ||| 0x80#8) e.word)) ∧
      (e.kind = .read → s.frame = some (mkFrame e.tag 0x00000000#32)))

/-- 42 R161: the Issue step. -/
def Obligations.IssueStepHandsTheFrameOver : Prop :=
  ∀ (s : State) (f : WireFrame), s.internalFault = none → s.env.resetLine = [] → s.fsm = .issue → s.frame = some f →
    step s = .next { s with txAbyte := f.abyte, txData := f.word, txnCount := s.txnCount + 1#9, fsm := .wait,
                            env := { s.env with wire := s.env.wire ++ [f] } }

/-- 42 R165, R166, their Reply steps: of a READ_REG the first answer is discarded and the second is the result; of a
WRITE_REG the received data is ignored. -/
def Obligations.SingleAccessReplies : Prop :=
  ∀ (s : State) (st b0 b1 b2 b3 : Byte) (rest : List Reply), s.internalFault = none → s.env.resetLine = [] →
    s.fsm = .wait → s.env.replies = .ok st b0 b1 b2 b3 :: rest →
    (s.curOp = 0x1#4 → s.seqI = 0#9 →
      step s = .next { s with seqI := 1#9, fsm := .issue, env := { s.env with replies := rest } }) ∧
    (s.curOp = 0x1#4 → s.seqI = 1#9 → step s =
      .next { s with resStatus := st, resTag := s.curAddr, resWord := unbe32 b0 b1 b2 b3, resValid := true, err := .none,
                     fsm := .idle, env := { s.env with replies := rest } }) ∧
    (s.curOp = 0x2#4 → step s =
      .next { s with resStatus := st, err := .none, fsm := .idle, env := { s.env with replies := rest } })

/-- 42 R171, R172: the Reply step of a BULK resolves the previous action if it is a read, then goes on to the next action,
to the trailing transaction, or to the end. -/
def Obligations.BulkReplies : Prop :=
  ∀ (s : State) (st b0 b1 b2 b3 : Byte) (rest : List Reply), s.Inv → s.env.resetLine = [] → s.fsm = .wait →
    s.curOp = 0x3#4 → s.env.replies = .ok st b0 b1 b2 b3 :: rest →
    (s.seqTrail = false → ∃ act,
      act.length = s.act.length ∧
      (∀ j e, s.act[j]? = some e →
        act[j]? = some (if j + 1 = s.seqI.toNat ∧ e.kind = .read then { e with word := unbe32 b0 b1 b2 b3 } else e)) ∧
      (s.seqI.toNat + 1 < s.seqN.toNat → step s =
        .next { s with act := act, seqI := s.seqI + 1#9, fsm := .issue, env := { s.env with replies := rest } }) ∧
      (s.seqI.toNat + 1 = s.seqN.toNat → s.isReadAt s.seqI.toNat = true → step s =
        .next { s with act := act, seqTrail := true, seqI := s.seqI + 1#9, fsm := .issue,
                       env := { s.env with replies := rest } }) ∧
      (s.seqI.toNat + 1 = s.seqN.toNat → s.isReadAt s.seqI.toNat = false → step s =
        .next { s with act := act, resStatus := st, err := .none, fsm := .idle, env := { s.env with replies := rest } })) ∧
    (s.seqTrail = true → ∃ e, s.act[s.seqN.toNat - 1]? = some e ∧ step s =
      .next { s with act := s.act.set (s.seqN.toNat - 1) { e with word := unbe32 b0 b1 b2 b3 }, resStatus := st,
                     err := .none, fsm := .idle, env := { s.env with replies := rest } })

/-- 42 R164: a transport error, in any transaction of any command, changes only ERR, TERR and FSM. Then 00 R10: no step
interprets a payload. Exchange the payloads by any `f`, those latched and those to come, and the step does the same with
the exchanged payloads. -/
def Obligations.TransportErrorEndsTheCommand : Prop :=
  (∀ (s : State) (e : TErr) (rest : List Reply), s.internalFault = none → s.env.resetLine = [] → s.fsm = .wait →
    s.env.replies = .err e :: rest → step s =
      .next { s with err := .transportError, terr := some e, fsm := .idle, env := { s.env with replies := rest } }) ∧
  (∀ (s : State) (f : TErr → TErr), step (s.mapTErr f) = mapTErrOf f (step s))

/-- 60 R215: with no result delivered and `Reset` not asserted, the block stays in WAIT, for ever. -/
def Obligations.WaitWithoutReplyHangs : Prop :=
  ∀ (s : State) (k : Nat), s.internalFault = none → s.env.resetLine = [] → s.fsm = .wait → s.env.replies = [] →
    runFor k s = .next s

/-- 70 R230: the Reset step, in every state (the reset line is the model's rendering of it, log 5); after it the block waits
in IDLE for a command. -/
def Obligations.ResetSetsEveryRegister : Prop :=
  (∀ (s : State) (rest : List Bool), s.env.resetLine = true :: rest →
    step s = .next
      { fsm := .idle, curOp := 0#4, curAddr := 0x00#8, curData := 0x00000000#32, seqN := 0#8, seqI := 0#9,
        seqTrail := false, txAbyte := 0x00#8, txData := 0x00000000#32, txnCount := 0#9, resStatus := 0x00#8,
        resTag := 0x00#8, resWord := 0x00000000#32, resValid := false, resAux := 0x00000000#32, err := .none,
        terr := none, map := s.cfg.catalog.map fun e => { tag := e.addr, word := e.default },
        act := List.replicate s.cfg.maxActions { valid := false, kind := .read, tag := 0x00#8, word := 0x00000000#32 },
        cfg := s.cfg, env := { s.env with resetLine := rest } }) ∧
  (∀ (c : Config) (env : Env), env.resetLine = [] → env.hostCmds = [] →
    step (State.resetOf c env) = .next (State.resetOf c env))

/-! ### Whole-machine rules -/

/-- 60 R200, R204: a command that ends in an error in its HostCmd step ends in one its row lists, and changes nothing but
ERR. -/
def Obligations.AnErrorChangesOnlyErr : Prop :=
  ∀ (s t : State) (i : Instr), s.Ready → exec i s = .next t →
    (isTransaction i = true ∧ t.fsm = .issue ∧ t.err = s.err) ∨ t.err = .none ∨
      (t.err ∈ errorsOf i ∧ t = { s with err := t.err, fsm := .idle })

/-- 10 R36, R37, R39, 41 R145: no step changes the configuration, the number of map slots or a map tag. -/
def Obligations.MapTagsAndConfigNeverChange : Prop :=
  ∀ s t : State, s.map.map (·.tag) = s.cfg.catalog.map (·.addr) → step s = .next t →
    t.cfg = s.cfg ∧ t.map.map (·.tag) = s.map.map (·.tag)

/-- 10 R36, 20 R80, 70 R242: only MAP_SET_STATE, MAP_STORE_RES, MAP_DEFAULT and FIELD_SET change a map word. -/
def Obligations.OnlyMapCommandsWriteTheMap : Prop :=
  ∀ s t : State, s.noReset → step s = .next t →
    t.map = s.map ∨ ∃ i, s.accepts i ∧ writesMap i = true

/-- 10 R31 to R33: what writes the result registers. -/
def Obligations.WritersOfTheResultRegisters : Prop :=
  ∀ s t : State, s.noReset → step s = .next t →
    ((t.resTag = s.resTag ∧ t.resWord = s.resWord ∧ t.resValid = s.resValid) ∨
      (∃ i, s.accepts i ∧ writesRes i = true) ∨ (s.takesOk ∧ s.curOp = opReadReg)) ∧
    (s.resValid = true → t.resValid = true) ∧
    (t.resAux = s.resAux ∨ ∃ i, s.accepts i ∧ writesAux i = true) ∧
    (t.resStatus = s.resStatus ∨ (s.takesOk ∧ t.fsm = .idle ∧ t.err = .none))

/-- 10 R22 to R30, R34, R35, 42 R172: what writes the sequencer's registers, the transmit registers, ERR and TERR. That
READ_REG and WRITE_REG clear SEQ_TRAIL too is by 42 R165 and R166 (log 18). -/
def Obligations.WritersOfTheSequencerRegisters : Prop :=
  ∀ s t : State, s.noReset → step s = .next t →
    (t.curOp = s.curOp ∨ ∃ i, s.accepts i ∧ isTransaction i = true) ∧
    (t.curAddr = s.curAddr ∨ s.accepts (.readReg t.curAddr) ∨ s.accepts (.writeReg t.curAddr t.curData)) ∧
    (t.curData = s.curData ∨ s.accepts (.writeReg t.curAddr t.curData)) ∧
    (t.seqN = s.seqN ∨ s.accepts (.bulk t.seqN)) ∧
    (t.seqI = s.seqI ∨ (t.seqI = 0#9 ∧ ∃ i, s.accepts i ∧ isTransaction i = true) ∨
      (s.takesOk ∧ t.seqI.toNat = s.seqI.toNat + 1)) ∧
    (t.seqTrail = s.seqTrail ∨ (t.seqTrail = false ∧ ∃ i, s.accepts i ∧ isTransaction i = true) ∨
      (t.seqTrail = true ∧ s.takesOk ∧ s.curOp = opBulk ∧ s.seqI.toNat + 1 = s.seqN.toNat ∧
        s.isReadAt s.seqI.toNat = true)) ∧
    ((t.txAbyte = s.txAbyte ∧ t.txData = s.txData ∧ t.env.wire = s.env.wire) ∨ (s.fsm = .issue ∧ t.fsm = .wait)) ∧
    (t.txnCount = s.txnCount ∨ (t.txnCount = 0#9 ∧ ∃ i, s.accepts i ∧ isTransaction i = true) ∨
      (s.fsm = .issue ∧ t.txnCount = s.txnCount + 1#9)) ∧
    (t.terr = s.terr ∨ s.fsm = .wait ∧ ∃ e, s.env.replies.head? = some (.err e) ∧ t.terr = some e) ∧
    (t.err = s.err ∨ t.fsm = .idle)

/-- 10 R38, 20 R79, 42 R171, R172: ACTION_WRITE replaces one entry; an OK answer of a BULK writes the received word into one
entry, the read action before the one answered or, in the trailing transaction, the last action, and keeps its valid bit,
kind and tag; nothing else writes the action buffer. -/
def Obligations.WritersOfTheActionBuffer : Prop :=
  ∀ s t : State, s.noReset → step s = .next t →
    t.act = s.act ∨
    (∃ k kind a v, s.accepts (.actionWrite k kind a v) ∧
      t.act = s.act.set k.toNat { valid := true, kind := kind, tag := a, word := v }) ∨
    (s.fsm = .wait ∧ s.curOp = opBulk ∧ ∃ st b0 b1 b2 b3 j e, s.env.replies.head? = some (.ok st b0 b1 b2 b3) ∧
      s.act[j]? = some e ∧
      (s.seqTrail = false → j + 1 = s.seqI.toNat ∧ e.kind = .read) ∧
      (s.seqTrail = true → j + 1 = s.seqN.toNat) ∧
      t.act = s.act.set j { e with word := unbe32 b0 b1 b2 b3 })

/-- 20 R74, 30 R86, 42 R161: at most one transaction is outstanding; an Issue step hands the transport exactly FRAME(state),
after all earlier frames, and no other step hands it any. The record of the frames is the model's (log 6), and `ticked`
moves only the reset line on (log 5). -/
def Obligations.TransactionsGoOutOneAtATime : Prop :=
  ∀ s t : State, s.noReset → step s = .next t →
    (t.env.wire = s.env.wire ∨ ∃ f, t.env.wire = s.env.wire ++ [f] ∧ s.fsm = .issue ∧ t.fsm = .wait) ∧
    (s.fsm = .wait → t.env.wire = s.env.wire ∧ (t.fsm = .wait → t = s.ticked)) ∧
    (s.fsm = .issue → ∃ f, s.frame = some f ∧ t.env.wire = s.env.wire ++ [f] ∧ t.fsm = .wait)

/-- 42 R175, 20 R75: the states of the actions over every step of a BULK in progress. An Issue step sends exactly the action
it issues. A step without an answer moves none. An OK answer resolves exactly the actions the rule says that step resolves,
each of them SENT before, and puts the received word into those that are reads; where it ends the BULK, every action is
resolved. An error answer resolves none: what was resolved, sent or pending is by the failed transaction's number (42 R176).
Where no BULK is in progress no action has a state. -/
def Obligations.ActionPhasesAdvanceInOrder : Prop :=
  (∀ (s : State) (j : Nat), s.fsm = .idle → s.phase j = none ∧ s.resolves j = false) ∧
  ∀ (s t : State) (j : Nat), s.Inv → s.noReset → s.curOp = opBulk → s.fsm ≠ .idle → j < s.seqN.toNat →
    step s = .next t →
    (s.fsm = .issue →
      ((s.phase j = some .pending ∧ t.phase j = some .sent) ↔ (s.seqTrail = false ∧ j = s.seqI.toNat)) ∧
      (¬ (s.seqTrail = false ∧ j = s.seqI.toNat) → t.phase j = s.phase j)) ∧
    (s.fsm = .wait → s.env.replies = [] → t.phase j = s.phase j) ∧
    (∀ st b0 b1 b2 b3, s.fsm = .wait → s.env.replies.head? = some (.ok st b0 b1 b2 b3) →
      (s.resolves j = true → s.phase j = some .sent) ∧
      ((t.fsm = .issue ∧ t.phase j = if s.resolves j then some .resolved else s.phase j) ∨
        (t.fsm = .idle ∧ (s.resolves j = true ∨ s.phase j = some .resolved))) ∧
      (∀ e, s.act[j]? = some e →
        t.act[j]? = some (if s.resolves j = true ∧ e.kind = .read then { e with word := unbe32 b0 b1 b2 b3 } else e))) ∧
    (∀ e, s.fsm = .wait → s.env.replies.head? = some (.err e) →
      t.fsm = .idle ∧ t.act = s.act ∧ s.phase j = some
        (if j + 1 < s.seqI.toNat then .resolved else if j ≤ s.seqI.toNat then .sent else .pending))

/-- 10 R20, R37, 41 R146: the state after Reset satisfies the invariant, for every configuration; so does
`State.reset`, the one over the fixture (log 2). -/
def Obligations.ResetSatisfiesTheInvariant : Prop :=
  (∀ (c : Config) (env : Env), (State.resetOf c env).Inv) ∧ State.reset.Inv ∧ core.reset = State.reset

/-- 10 R25 to R28, R30, R35, R37, 41 R146, 60 R218: every step keeps the invariant. -/
def Obligations.EveryStepKeepsTheInvariant : Prop := ∀ s t : State, s.Inv → step s = .next t → t.Inv

/-- 60 R218: from a state that satisfies the invariant no step faults or refuses. -/
def Obligations.InternalFaultsAreUnreachable : Prop := ∀ s : State, s.Inv → s.stepsOn

/-- 10 R26, R30, R34, R37, R40, 30 R93: what the invariant says in every state, in the spec's words: the registers, and the
response port, whose outputs are the registers the rule names and stay among their legal values. -/
def Obligations.InvariantInTheSpecsWords : Prop :=
  ([ErrCode.none, .unknownAddress, .unexpectedAddress, .transportError, .illegalCommand, .accessDenied, .badField,
    .badIndex].map ErrCode.code = [0#4, 1#4, 2#4, 3#4, 4#4, 5#4, 6#4, 7#4]) ∧
  ∀ s : State, s.Inv →
    (s.response = { cmdReady := decide (s.fsm = .idle), err := s.err.code, status := s.resStatus, validState := s.resValid,
                    tag := s.resTag, word := s.resWord, aux := s.resAux, terr := s.terr, txnCount := s.txnCount } ∧
      s.response.err ≤ 7#4 ∧ s.response.txnCount ≤ 256#9 ∧
      (s.response.validState = true → ∃ e ∈ s.cfg.catalog, e.addr.setWidth 8 = s.response.tag) ∧
      (s.response.err = 3#4 → s.response.terr.isSome = true)) ∧
    (s.fsm = .idle ∨ s.fsm = .issue ∨ s.fsm = .wait) ∧
    (∀ k e, s.cfg.catalog[k]? = some e → ∃ m, s.map[k]? = some m ∧ m.tag = e.addr ∧
      s.cfg.slot (m.tag.setWidth 8) = some k) ∧
    (∀ (k : Nat) (e : Action), s.act[k]? = some e → e.valid = true → (s.cfg.slot e.tag).isSome = true) ∧
    (s.resValid = true → (s.cfg.slot s.resTag).isSome = true) ∧
    (s.fsm ≠ .idle → s.curOp = opBulk →
      (s.seqTrail = true ↔ s.seqI.toNat = s.seqN.toNat) ∧ s.seqI.toNat ≤ 255 ∧
      (s.fsm = .wait → s.txnCount.toNat = s.seqI.toNat + 1) ∧ (s.fsm = .issue → s.txnCount = s.seqI))

/-! ### Whole commands -/

/-- 42 R165, R177, R181, 95 E3: READ_REG, from the port to its end: two identical frames, the second answer is the result,
the first appears nowhere. -/
def Obligations.ReadRegTakesTwoTransactions : Prop :=
  ∀ (s : State) (a st1 st2 : Byte) (w d rx1 rx2 : Word) (cmds : List (Word × Word)) (rest : List Reply), s.Ready →
    s.env.resetLine = [] → s.env.hostCmds = (w, d) :: cmds → decode (.cmd w d) = .ok (.readReg a) →
    s.cfg.readable a = true → s.env.replies = okReply st1 rx1 :: okReply st2 rx2 :: rest →
    runFor 5 s = .next
      { s with curOp := opReadReg, curAddr := a, seqI := 1#9, seqTrail := false, txAbyte := a, txData := readFill,
               txnCount := 2#9, resStatus := st2, resTag := a, resWord := rx2, resValid := true, err := .none,
               fsm := .idle,
               env := { s.env with hostCmds := cmds, replies := rest,
                                   wire := s.env.wire ++ [mkFrame a readFill, mkFrame a readFill] } }

/-- 42 R166, R177, R181, 95 E4: WRITE_REG, from the port to its end: one frame. -/
def Obligations.WriteRegTakesOneTransaction : Prop :=
  ∀ (s : State) (a st : Byte) (w v rx : Word) (cmds : List (Word × Word)) (rest : List Reply), s.Ready →
    s.env.resetLine = [] → s.env.hostCmds = (w, v) :: cmds → decode (.cmd w v) = .ok (.writeReg a v) →
    s.cfg.writable a = true → s.env.replies = okReply st rx :: rest →
    runFor 3 s = .next
      { s with curOp := opWriteReg, curAddr := a, curData := v, seqI := 0#9, seqTrail := false, txAbyte := a ||| 0x80#8,
               txData := v, txnCount := 1#9, resStatus := st, err := .none, fsm := .idle,
               env := { s.env with hostCmds := cmds, replies := rest,
                                   wire := s.env.wire ++ [mkFrame (a ||| 0x80#8) v] } }

/-- 42 R183: the step form of BULK ends in the state of the sequential program of R169 on the same answers, failing ones
included. -/
def Obligations.BulkStepsAgreeWithTheSequentialProgram : Prop :=
  ∀ (s t : State) (n : Byte) (w d : Word) (cmds : List (Word × Word)), s.Inv → s.fsm = .idle → s.env.resetLine = [] →
    s.env.hostCmds = (w, d) :: cmds → decode (.cmd w d) = .ok (.bulk n) → 1 ≤ n.toNat →
    s.actionsValid n.toNat = true → (s.withCmds cmds).bulkProgram n = some t →
    ∃ k, runFor k s = .next t ∧ t.fsm = .idle

/-- 42 R169 to R173, R177, R181, 20 R75: a BULK whose transactions all succeed issues `N` or `N + 1` frames in order; read
action `j` gets the data of transaction `j + 1`, a write action keeps its word, the status is the last transaction's, and
map and transient state are untouched. -/
def Obligations.BulkResolvesEveryRead : Prop :=
  ∀ (s : State) (n : Byte) (w d : Word) (cmds : List (Word × Word)) (oks : List (Byte × Word)) (rest : List Reply),
    s.Inv → s.fsm = .idle → s.env.resetLine = [] → s.env.hostCmds = (w, d) :: cmds →
    decode (.cmd w d) = .ok (.bulk n) → 1 ≤ n.toNat → s.actionsValid n.toNat = true →
    oks.length = s.bulkTxns n.toNat → s.env.replies = oks.map (fun p => okReply p.1 p.2) ++ rest →
    ∃ t, runFor (1 + 2 * oks.length) s = .next t ∧ t.fsm = .idle ∧ t.err = .none ∧
      t.txnCount.toNat = oks.length ∧ (oks.getLast?).map (·.1) = some t.resStatus ∧
      (∀ j e, s.act[j]? = some e → t.act[j]? =
        if j < n.toNat ∧ e.kind = .read then (oks[j + 1]?).map fun p => { e with word := p.2 } else some e) ∧
      t.env = { s.env with hostCmds := cmds, replies := rest, wire := s.env.wire ++ s.bulkFrames n.toNat } ∧
      t.map = s.map ∧ t.resTag = s.resTag ∧ t.resWord = s.resWord ∧ t.resValid = s.resValid ∧ t.resAux = s.resAux ∧
      t.terr = s.terr ∧ t.cfg = s.cfg

/-- 42 R176, R182, 60 R210: a BULK whose transaction `m` fails has exactly the effects of transactions `0 .. m-1`. -/
def Obligations.BulkAbortsAtTheFailedTransaction : Prop :=
  ∀ (s : State) (n : Byte) (w d : Word) (cmds : List (Word × Word)) (oks : List (Byte × Word)) (e : TErr)
    (rest : List Reply),
    s.Inv → s.fsm = .idle → s.env.resetLine = [] → s.env.hostCmds = (w, d) :: cmds →
    decode (.cmd w d) = .ok (.bulk n) → 1 ≤ n.toNat → s.actionsValid n.toNat = true →
    oks.length < s.bulkTxns n.toNat → s.env.replies = oks.map (fun p => okReply p.1 p.2) ++ .err e :: rest →
    ∃ t, runFor (1 + 2 * (oks.length + 1)) s = .next t ∧ t.fsm = .idle ∧ t.err = .transportError ∧ t.terr = some e ∧
      t.txnCount.toNat = oks.length + 1 ∧ t.seqI.toNat = oks.length ∧ t.resStatus = s.resStatus ∧
      (∀ j a, s.act[j]? = some a → t.act[j]? =
        if j + 2 ≤ oks.length ∧ a.kind = .read then (oks[j + 1]?).map fun p => { a with word := p.2 } else some a) ∧
      t.env = { s.env with hostCmds := cmds, replies := rest,
                           wire := s.env.wire ++ (s.bulkFrames n.toNat).take (oks.length + 1) } ∧
      t.map = s.map ∧ t.resTag = s.resTag ∧ t.resWord = s.resWord ∧ t.resValid = s.resValid ∧ t.resAux = s.resAux ∧
      t.cfg = s.cfg

/-- 42 R179: no command uses the data of its first transaction: two runs that differ only in it have the same next
state. -/
def Obligations.FirstTransactionsDataIsNeverUsed : Prop :=
  ∀ (s : State) (st : Byte) (rx rx' : Word) (rest : List Reply), s.Inv → s.noReset → s.fsm = .wait → s.seqI = 0#9 →
    step (s.withReplies (okReply st rx :: rest)) = step (s.withReplies (okReply st rx' :: rest))

/-- 42 R178: READ_REG a and BULK 1 of the action Read a put the same frames on the wire, and the value lands in RES_WORD or
in the action; WRITE_REG and BULK 1 of a Write likewise. -/
def Obligations.SingleAccessEqualsBulkOfOne : Prop :=
  ∀ (s : State) (a st1 st2 : Byte) (v rx1 rx2 : Word) (b : Action) (acts : List Action) (rest : List Reply), s.Inv →
    s.fsm = .idle → s.env.resetLine = [] → s.act = b :: acts → b.valid = true → b.tag = a →
    (s.cfg.readable a = true → b.kind = .read → s.env.replies = okReply st1 rx1 :: okReply st2 rx2 :: rest →
      ∃ t u, runFor 5 (s.withFetched (encode (.readReg a))) = .next t ∧
        runFor 5 (s.withFetched (encode (.bulk 1#8))) = .next u ∧ t.fsm = .idle ∧ u.fsm = .idle ∧
        t.env.wire = u.env.wire ∧ t.resWord = rx2 ∧ u.act = { b with word := rx2 } :: acts ∧
        t.resStatus = u.resStatus) ∧
    (s.cfg.writable a = true → b.kind = .write → b.word = v → s.env.replies = okReply st1 rx1 :: rest →
      ∃ t u, runFor 3 (s.withFetched (encode (.writeReg a v))) = .next t ∧
        runFor 3 (s.withFetched (encode (.bulk 1#8))) = .next u ∧ t.fsm = .idle ∧ u.fsm = .idle ∧
        t.env.wire = u.env.wire ∧ u.act = s.act ∧ t.resStatus = u.resStatus)

/-- 42 R160 with R165, 70 R235: against a chip of the reference model, READ_REG returns the chip's value of its own
register, whatever transactions went before and whatever read they left pending. The chip's model is an assumption about
the environment (log 16), `chip` its state before the first of the two frames the command appends to the record. -/
def Obligations.ReadRegReturnsTheChipsValue : Prop :=
  ∀ (s : State) (a st1 st2 : Byte) (rx1 rx2 : Word) (rest : List Reply), s.Inv → s.fsm = .idle → s.env.resetLine = [] →
    s.cfg.readable a = true → s.env.replies = okReply st1 rx1 :: okReply st2 rx2 :: rest →
    ∃ t f1 f2, runFor 5 (s.withFetched (encode (.readReg a))) = .next t ∧ t.fsm = .idle ∧
      t.env.wire = s.env.wire ++ [f1, f2] ∧
      ∀ (chip : Chip) (v : Nat → BitVec 7 → Word),
        chip.agrees v 0 [(f1, rx1), (f2, rx2)] → t.resWord = v 1 (a.setWidth 7)

/-- 30 R100: ENCODE leaves `encode(layout, values)` in the slot of its address, and every other slot as it was. -/
def Obligations.EncodePseudoInstructionBuildsTheWord : Prop :=
  ∀ (s : State) (a : Byte) (k : Nat) (vs : List Word), s.Ready → s.cfg.slot a = some k → vs.length = s.cfg.nf k →
    ∃ t m, s.map[k]? = some m ∧ execAll (encodeInto a vs) s = .next t ∧ t.err = .none ∧
      t = { s with map := s.map.set k { tag := m.tag, word := encodeFields (s.cfg.layout k) vs }, err := .none }
end

