-- ==== Sys2Proof/Laws/Codec.lean ====
section
/-! SUPPORT. The codec bit by bit: what each bit of a mask, of a field read and of a field write is (40 R110 to R112). -/

namespace Sys2Proof

theorem mask_getLsbD (n i : Nat) : (mask n).getLsbD i = decide (i < 32 ∧ i < n) := by
  simp [mask, BitVec.getLsbD_setWidth, BitVec.getLsbD_allOnes]

theorem fmask_getLsbD (d : FieldDesc) (i : Nat) :
    (fmask d).getLsbD i = decide (i < 32 ∧ d.off ≤ i ∧ i < d.off + d.width) := by
  simp only [fmask, BitVec.getLsbD_shiftLeft, mask_getLsbD]
  rcases Nat.lt_or_ge i d.off with h | h
  · have h1 : ¬ d.off ≤ i := by omega
    simp [h, h1]
  · have h1 : ¬ i < d.off := by omega
    have h2 : i - d.off < d.width ↔ i < d.off + d.width := by omega
    by_cases h3 : i < 32
    · have h4 : i - d.off < 32 := by omega
      simp [h, h1, h2, h3, h4]
    · simp [h3]

/-- Bit `i` of a field's value is the word's bit `off + i` inside the width, and 0 above it. -/
theorem fieldGet_getLsbD (d : FieldDesc) (w : Word) (i : Nat) :
    (fieldGet d w).getLsbD i = (w.getLsbD (d.off + i) && decide (i < 32 ∧ i < d.width)) := by
  simp only [fieldGet, BitVec.getLsbD_and, BitVec.getLsbD_ushiftRight, mask_getLsbD]

/-- Bit `i` after a field write: the value's bit inside the field, the word's own bit outside it. -/
theorem fieldSet_getLsbD (d : FieldDesc) (w v : Word) (i : Nat) :
    (fieldSet d w v).getLsbD i =
      if i < 32 ∧ d.off ≤ i ∧ i < d.off + d.width then v.getLsbD (i - d.off) else w.getLsbD i := by
  simp only [fieldSet, BitVec.getLsbD_or, BitVec.getLsbD_and, BitVec.getLsbD_not, BitVec.getLsbD_shiftLeft,
    fmask_getLsbD, mask_getLsbD]
  generalize hw : w.getLsbD i = y
  generalize v.getLsbD (i - d.off) = x
  by_cases h : i < 32
  · rcases Nat.lt_or_ge i d.off with h2 | h2
    · have h3 : ¬ d.off ≤ i := by omega
      simp [h, h2, h3]
    · have h1 : i - d.off < d.width ↔ i < d.off + d.width := by omega
      have h3 : ¬ i < d.off := by omega
      have h5 : i - d.off < 32 := by omega
      by_cases h4 : i < d.off + d.width <;> simp [h, h1, h2, h3, h4, h5]
  · have h2 : y = false := by rw [← hw]; exact BitVec.getLsbD_of_ge w i (by omega)
    simp [h, h2]

end Sys2Proof
end

