-- ==== Sys2Proof/Laws/Encoding.lean ====
section
/-! SUPPORT. The fields of a command word and the word of a frame, each read back from what the encoder builds. -/

namespace Sys2Proof

section
variable (op : BitVec 4) (kind : Bool) (idx addr : Byte)

/-- Bit `i` of a command word, field by field from the low end (30 R87). -/
theorem cmdWord_getLsbD (i : Nat) (h : i < 32) : (cmdWord op kind idx addr).getLsbD i =
    if i < 4 then op.getLsbD i
    else if i < 8 then false
    else if i < 16 then addr.getLsbD (i - 8)
    else if i < 24 then idx.getLsbD (i - 16)
    else (i == 24 && kind) := by
  have e : (cmdWord op kind idx addr).getLsbD i =
      (0#7 ++ BitVec.ofBool kind ++ idx ++ addr ++ 0#4 ++ op : BitVec (7 + 1 + 8 + 8 + 4 + 4)).getLsbD i := rfl
  rw [e]
  simp only [BitVec.getLsbD_append, BitVec.getLsbD_zero, BitVec.getLsbD_ofBool]
  interval_cases i <;> simp

@[simp] theorem cmdOp_cmdWord : cmdOp (cmdWord op kind idx addr) = op := by
  apply BitVec.eq_of_getLsbD_eq
  intro i h
  simp only [cmdOp, BitVec.getLsbD_extractLsb']
  rw [cmdWord_getLsbD _ _ _ _ _ (by omega)]
  interval_cases i <;> simp

@[simp] theorem cmdRsv0_cmdWord : cmdRsv0 (cmdWord op kind idx addr) = 0#4 := by
  apply BitVec.eq_of_getLsbD_eq
  intro i h
  simp only [cmdRsv0, BitVec.getLsbD_extractLsb']
  rw [cmdWord_getLsbD _ _ _ _ _ (by omega)]
  interval_cases i <;> simp

@[simp] theorem cmdAddr_cmdWord : cmdAddr (cmdWord op kind idx addr) = addr := by
  apply BitVec.eq_of_getLsbD_eq
  intro i h
  simp only [cmdAddr, BitVec.getLsbD_extractLsb']
  rw [cmdWord_getLsbD _ _ _ _ _ (by omega)]
  interval_cases i <;> simp

@[simp] theorem cmdIdx_cmdWord : cmdIdx (cmdWord op kind idx addr) = idx := by
  apply BitVec.eq_of_getLsbD_eq
  intro i h
  simp only [cmdIdx, BitVec.getLsbD_extractLsb']
  rw [cmdWord_getLsbD _ _ _ _ _ (by omega)]
  interval_cases i <;> simp

@[simp] theorem cmdKind_cmdWord : cmdKind (cmdWord op kind idx addr) = kind := by
  rw [cmdKind, cmdWord_getLsbD _ _ _ _ _ (by omega)]
  simp

@[simp] theorem cmdRsv1_cmdWord : cmdRsv1 (cmdWord op kind idx addr) = 0#7 := by
  apply BitVec.eq_of_getLsbD_eq
  intro i h
  simp only [cmdRsv1, BitVec.getLsbD_extractLsb']
  rw [cmdWord_getLsbD _ _ _ _ _ (by omega)]
  interval_cases i <;> simp

end

/-- Bit `i` of a received word: byte `3 - i / 8`, bit `i mod 8` (20 R67). -/
theorem unbe32_getLsbD (b0 b1 b2 b3 : Byte) (i : Nat) (h : i < 32) : (unbe32 b0 b1 b2 b3).getLsbD i =
    if i < 8 then b3.getLsbD i
    else if i < 16 then b2.getLsbD (i - 8)
    else if i < 24 then b1.getLsbD (i - 16)
    else b0.getLsbD (i - 24) := by
  have e : (unbe32 b0 b1 b2 b3).getLsbD i = (b0 ++ b1 ++ b2 ++ b3 : BitVec (8 + 8 + 8 + 8)).getLsbD i := rfl
  rw [e]
  simp only [BitVec.getLsbD_append]
  interval_cases i <;> simp

@[simp] theorem abyte_mkFrame (b : Byte) (w : Word) : (mkFrame b w).abyte = b := rfl

@[simp] theorem word_mkFrame (b : Byte) (w : Word) : (mkFrame b w).word = w := by
  apply BitVec.eq_of_getLsbD_eq
  intro i h
  simp only [WireFrame.word, mkFrame]
  rw [unbe32_getLsbD _ _ _ _ _ h]
  simp only [BitVec.getLsbD_extractLsb']
  interval_cases i <;> simp

/-- A frame is its address byte and its word. -/
theorem mkFrame_word (f : WireFrame) : mkFrame f.abyte f.word = f := by
  obtain ⟨b, d0, d1, d2, d3⟩ := f
  simp only [mkFrame, WireFrame.word, WireFrame.mk.injEq, true_and]
  refine ⟨?_, ?_, ?_, ?_⟩ <;>
    (apply BitVec.eq_of_getLsbD_eq; intro i h
     simp only [BitVec.getLsbD_extractLsb']
     rw [unbe32_getLsbD _ _ _ _ _ (by omega)]
     interval_cases i <;> simp)

end Sys2Proof
end

