-- ==== Sys2Proof/Laws/State.lean ====
section
/-! SUPPORT. One lemma per field per update of the state, each true by rfl, so that no later proof unfolds an update. -/

namespace Sys2Proof.Machine

variable (s : State)

/-! ### raise -/

@[simp] theorem State.raise_fsm (e : ErrCode) : (s.raise e).fsm = .idle := rfl
@[simp] theorem State.raise_curOp (e : ErrCode) : (s.raise e).curOp = s.curOp := rfl
@[simp] theorem State.raise_curAddr (e : ErrCode) : (s.raise e).curAddr = s.curAddr := rfl
@[simp] theorem State.raise_curData (e : ErrCode) : (s.raise e).curData = s.curData := rfl
@[simp] theorem State.raise_seqN (e : ErrCode) : (s.raise e).seqN = s.seqN := rfl
@[simp] theorem State.raise_seqI (e : ErrCode) : (s.raise e).seqI = s.seqI := rfl
@[simp] theorem State.raise_seqTrail (e : ErrCode) : (s.raise e).seqTrail = s.seqTrail := rfl
@[simp] theorem State.raise_txAbyte (e : ErrCode) : (s.raise e).txAbyte = s.txAbyte := rfl
@[simp] theorem State.raise_txData (e : ErrCode) : (s.raise e).txData = s.txData := rfl
@[simp] theorem State.raise_txnCount (e : ErrCode) : (s.raise e).txnCount = s.txnCount := rfl
@[simp] theorem State.raise_resStatus (e : ErrCode) : (s.raise e).resStatus = s.resStatus := rfl
@[simp] theorem State.raise_resTag (e : ErrCode) : (s.raise e).resTag = s.resTag := rfl
@[simp] theorem State.raise_resWord (e : ErrCode) : (s.raise e).resWord = s.resWord := rfl
@[simp] theorem State.raise_resValid (e : ErrCode) : (s.raise e).resValid = s.resValid := rfl
@[simp] theorem State.raise_resAux (e : ErrCode) : (s.raise e).resAux = s.resAux := rfl
@[simp] theorem State.raise_err (e : ErrCode) : (s.raise e).err = e := rfl
@[simp] theorem State.raise_terr (e : ErrCode) : (s.raise e).terr = s.terr := rfl
@[simp] theorem State.raise_map (e : ErrCode) : (s.raise e).map = s.map := rfl
@[simp] theorem State.raise_act (e : ErrCode) : (s.raise e).act = s.act := rfl
@[simp] theorem State.raise_cfg (e : ErrCode) : (s.raise e).cfg = s.cfg := rfl
@[simp] theorem State.raise_env (e : ErrCode) : (s.raise e).env = s.env := rfl

/-! ### raiseTransport -/

@[simp] theorem State.raiseTransport_fsm (e : TErr) : (s.raiseTransport e).fsm = .idle := rfl
@[simp] theorem State.raiseTransport_curOp (e : TErr) : (s.raiseTransport e).curOp = s.curOp := rfl
@[simp] theorem State.raiseTransport_curAddr (e : TErr) : (s.raiseTransport e).curAddr = s.curAddr := rfl
@[simp] theorem State.raiseTransport_curData (e : TErr) : (s.raiseTransport e).curData = s.curData := rfl
@[simp] theorem State.raiseTransport_seqN (e : TErr) : (s.raiseTransport e).seqN = s.seqN := rfl
@[simp] theorem State.raiseTransport_seqI (e : TErr) : (s.raiseTransport e).seqI = s.seqI := rfl
@[simp] theorem State.raiseTransport_seqTrail (e : TErr) : (s.raiseTransport e).seqTrail = s.seqTrail := rfl
@[simp] theorem State.raiseTransport_txAbyte (e : TErr) : (s.raiseTransport e).txAbyte = s.txAbyte := rfl
@[simp] theorem State.raiseTransport_txData (e : TErr) : (s.raiseTransport e).txData = s.txData := rfl
@[simp] theorem State.raiseTransport_txnCount (e : TErr) : (s.raiseTransport e).txnCount = s.txnCount := rfl
@[simp] theorem State.raiseTransport_resStatus (e : TErr) : (s.raiseTransport e).resStatus = s.resStatus := rfl
@[simp] theorem State.raiseTransport_resTag (e : TErr) : (s.raiseTransport e).resTag = s.resTag := rfl
@[simp] theorem State.raiseTransport_resWord (e : TErr) : (s.raiseTransport e).resWord = s.resWord := rfl
@[simp] theorem State.raiseTransport_resValid (e : TErr) : (s.raiseTransport e).resValid = s.resValid := rfl
@[simp] theorem State.raiseTransport_resAux (e : TErr) : (s.raiseTransport e).resAux = s.resAux := rfl
@[simp] theorem State.raiseTransport_err (e : TErr) : (s.raiseTransport e).err = .transportError := rfl
@[simp] theorem State.raiseTransport_terr (e : TErr) : (s.raiseTransport e).terr = some e := rfl
@[simp] theorem State.raiseTransport_map (e : TErr) : (s.raiseTransport e).map = s.map := rfl
@[simp] theorem State.raiseTransport_act (e : TErr) : (s.raiseTransport e).act = s.act := rfl
@[simp] theorem State.raiseTransport_cfg (e : TErr) : (s.raiseTransport e).cfg = s.cfg := rfl
@[simp] theorem State.raiseTransport_env (e : TErr) : (s.raiseTransport e).env = s.env := rfl

/-! ### succeed -/

@[simp] theorem State.succeed_fsm : (s.succeed).fsm = s.fsm := rfl
@[simp] theorem State.succeed_curOp : (s.succeed).curOp = s.curOp := rfl
@[simp] theorem State.succeed_curAddr : (s.succeed).curAddr = s.curAddr := rfl
@[simp] theorem State.succeed_curData : (s.succeed).curData = s.curData := rfl
@[simp] theorem State.succeed_seqN : (s.succeed).seqN = s.seqN := rfl
@[simp] theorem State.succeed_seqI : (s.succeed).seqI = s.seqI := rfl
@[simp] theorem State.succeed_seqTrail : (s.succeed).seqTrail = s.seqTrail := rfl
@[simp] theorem State.succeed_txAbyte : (s.succeed).txAbyte = s.txAbyte := rfl
@[simp] theorem State.succeed_txData : (s.succeed).txData = s.txData := rfl
@[simp] theorem State.succeed_txnCount : (s.succeed).txnCount = s.txnCount := rfl
@[simp] theorem State.succeed_resStatus : (s.succeed).resStatus = s.resStatus := rfl
@[simp] theorem State.succeed_resTag : (s.succeed).resTag = s.resTag := rfl
@[simp] theorem State.succeed_resWord : (s.succeed).resWord = s.resWord := rfl
@[simp] theorem State.succeed_resValid : (s.succeed).resValid = s.resValid := rfl
@[simp] theorem State.succeed_resAux : (s.succeed).resAux = s.resAux := rfl
@[simp] theorem State.succeed_err : (s.succeed).err = .none := rfl
@[simp] theorem State.succeed_terr : (s.succeed).terr = s.terr := rfl
@[simp] theorem State.succeed_map : (s.succeed).map = s.map := rfl
@[simp] theorem State.succeed_act : (s.succeed).act = s.act := rfl
@[simp] theorem State.succeed_cfg : (s.succeed).cfg = s.cfg := rfl
@[simp] theorem State.succeed_env : (s.succeed).env = s.env := rfl

/-! ### setMapWord -/

@[simp] theorem State.setMapWord_fsm (k : Nat) (v : Word) : (s.setMapWord k v).fsm = s.fsm := rfl
@[simp] theorem State.setMapWord_curOp (k : Nat) (v : Word) : (s.setMapWord k v).curOp = s.curOp := rfl
@[simp] theorem State.setMapWord_curAddr (k : Nat) (v : Word) : (s.setMapWord k v).curAddr = s.curAddr := rfl
@[simp] theorem State.setMapWord_curData (k : Nat) (v : Word) : (s.setMapWord k v).curData = s.curData := rfl
@[simp] theorem State.setMapWord_seqN (k : Nat) (v : Word) : (s.setMapWord k v).seqN = s.seqN := rfl
@[simp] theorem State.setMapWord_seqI (k : Nat) (v : Word) : (s.setMapWord k v).seqI = s.seqI := rfl
@[simp] theorem State.setMapWord_seqTrail (k : Nat) (v : Word) : (s.setMapWord k v).seqTrail = s.seqTrail := rfl
@[simp] theorem State.setMapWord_txAbyte (k : Nat) (v : Word) : (s.setMapWord k v).txAbyte = s.txAbyte := rfl
@[simp] theorem State.setMapWord_txData (k : Nat) (v : Word) : (s.setMapWord k v).txData = s.txData := rfl
@[simp] theorem State.setMapWord_txnCount (k : Nat) (v : Word) : (s.setMapWord k v).txnCount = s.txnCount := rfl
@[simp] theorem State.setMapWord_resStatus (k : Nat) (v : Word) : (s.setMapWord k v).resStatus = s.resStatus := rfl
@[simp] theorem State.setMapWord_resTag (k : Nat) (v : Word) : (s.setMapWord k v).resTag = s.resTag := rfl
@[simp] theorem State.setMapWord_resWord (k : Nat) (v : Word) : (s.setMapWord k v).resWord = s.resWord := rfl
@[simp] theorem State.setMapWord_resValid (k : Nat) (v : Word) : (s.setMapWord k v).resValid = s.resValid := rfl
@[simp] theorem State.setMapWord_resAux (k : Nat) (v : Word) : (s.setMapWord k v).resAux = s.resAux := rfl
@[simp] theorem State.setMapWord_err (k : Nat) (v : Word) : (s.setMapWord k v).err = s.err := rfl
@[simp] theorem State.setMapWord_terr (k : Nat) (v : Word) : (s.setMapWord k v).terr = s.terr := rfl
@[simp] theorem State.setMapWord_map (k : Nat) (v : Word) : (s.setMapWord k v).map = s.map.modify k fun m => { m with word := v } := rfl
@[simp] theorem State.setMapWord_act (k : Nat) (v : Word) : (s.setMapWord k v).act = s.act := rfl
@[simp] theorem State.setMapWord_cfg (k : Nat) (v : Word) : (s.setMapWord k v).cfg = s.cfg := rfl
@[simp] theorem State.setMapWord_env (k : Nat) (v : Word) : (s.setMapWord k v).env = s.env := rfl

/-! ### setAct -/

@[simp] theorem State.setAct_fsm (k : Nat) (e : Action) : (s.setAct k e).fsm = s.fsm := rfl
@[simp] theorem State.setAct_curOp (k : Nat) (e : Action) : (s.setAct k e).curOp = s.curOp := rfl
@[simp] theorem State.setAct_curAddr (k : Nat) (e : Action) : (s.setAct k e).curAddr = s.curAddr := rfl
@[simp] theorem State.setAct_curData (k : Nat) (e : Action) : (s.setAct k e).curData = s.curData := rfl
@[simp] theorem State.setAct_seqN (k : Nat) (e : Action) : (s.setAct k e).seqN = s.seqN := rfl
@[simp] theorem State.setAct_seqI (k : Nat) (e : Action) : (s.setAct k e).seqI = s.seqI := rfl
@[simp] theorem State.setAct_seqTrail (k : Nat) (e : Action) : (s.setAct k e).seqTrail = s.seqTrail := rfl
@[simp] theorem State.setAct_txAbyte (k : Nat) (e : Action) : (s.setAct k e).txAbyte = s.txAbyte := rfl
@[simp] theorem State.setAct_txData (k : Nat) (e : Action) : (s.setAct k e).txData = s.txData := rfl
@[simp] theorem State.setAct_txnCount (k : Nat) (e : Action) : (s.setAct k e).txnCount = s.txnCount := rfl
@[simp] theorem State.setAct_resStatus (k : Nat) (e : Action) : (s.setAct k e).resStatus = s.resStatus := rfl
@[simp] theorem State.setAct_resTag (k : Nat) (e : Action) : (s.setAct k e).resTag = s.resTag := rfl
@[simp] theorem State.setAct_resWord (k : Nat) (e : Action) : (s.setAct k e).resWord = s.resWord := rfl
@[simp] theorem State.setAct_resValid (k : Nat) (e : Action) : (s.setAct k e).resValid = s.resValid := rfl
@[simp] theorem State.setAct_resAux (k : Nat) (e : Action) : (s.setAct k e).resAux = s.resAux := rfl
@[simp] theorem State.setAct_err (k : Nat) (e : Action) : (s.setAct k e).err = s.err := rfl
@[simp] theorem State.setAct_terr (k : Nat) (e : Action) : (s.setAct k e).terr = s.terr := rfl
@[simp] theorem State.setAct_map (k : Nat) (e : Action) : (s.setAct k e).map = s.map := rfl
@[simp] theorem State.setAct_act (k : Nat) (e : Action) : (s.setAct k e).act = s.act.set k e := rfl
@[simp] theorem State.setAct_cfg (k : Nat) (e : Action) : (s.setAct k e).cfg = s.cfg := rfl
@[simp] theorem State.setAct_env (k : Nat) (e : Action) : (s.setAct k e).env = s.env := rfl

/-! ### setActWord -/

@[simp] theorem State.setActWord_fsm (k : Nat) (v : Word) : (s.setActWord k v).fsm = s.fsm := rfl
@[simp] theorem State.setActWord_curOp (k : Nat) (v : Word) : (s.setActWord k v).curOp = s.curOp := rfl
@[simp] theorem State.setActWord_curAddr (k : Nat) (v : Word) : (s.setActWord k v).curAddr = s.curAddr := rfl
@[simp] theorem State.setActWord_curData (k : Nat) (v : Word) : (s.setActWord k v).curData = s.curData := rfl
@[simp] theorem State.setActWord_seqN (k : Nat) (v : Word) : (s.setActWord k v).seqN = s.seqN := rfl
@[simp] theorem State.setActWord_seqI (k : Nat) (v : Word) : (s.setActWord k v).seqI = s.seqI := rfl
@[simp] theorem State.setActWord_seqTrail (k : Nat) (v : Word) : (s.setActWord k v).seqTrail = s.seqTrail := rfl
@[simp] theorem State.setActWord_txAbyte (k : Nat) (v : Word) : (s.setActWord k v).txAbyte = s.txAbyte := rfl
@[simp] theorem State.setActWord_txData (k : Nat) (v : Word) : (s.setActWord k v).txData = s.txData := rfl
@[simp] theorem State.setActWord_txnCount (k : Nat) (v : Word) : (s.setActWord k v).txnCount = s.txnCount := rfl
@[simp] theorem State.setActWord_resStatus (k : Nat) (v : Word) : (s.setActWord k v).resStatus = s.resStatus := rfl
@[simp] theorem State.setActWord_resTag (k : Nat) (v : Word) : (s.setActWord k v).resTag = s.resTag := rfl
@[simp] theorem State.setActWord_resWord (k : Nat) (v : Word) : (s.setActWord k v).resWord = s.resWord := rfl
@[simp] theorem State.setActWord_resValid (k : Nat) (v : Word) : (s.setActWord k v).resValid = s.resValid := rfl
@[simp] theorem State.setActWord_resAux (k : Nat) (v : Word) : (s.setActWord k v).resAux = s.resAux := rfl
@[simp] theorem State.setActWord_err (k : Nat) (v : Word) : (s.setActWord k v).err = s.err := rfl
@[simp] theorem State.setActWord_terr (k : Nat) (v : Word) : (s.setActWord k v).terr = s.terr := rfl
@[simp] theorem State.setActWord_map (k : Nat) (v : Word) : (s.setActWord k v).map = s.map := rfl
@[simp] theorem State.setActWord_act (k : Nat) (v : Word) : (s.setActWord k v).act = s.act.modify k fun e => { e with word := v } := rfl
@[simp] theorem State.setActWord_cfg (k : Nat) (v : Word) : (s.setActWord k v).cfg = s.cfg := rfl
@[simp] theorem State.setActWord_env (k : Nat) (v : Word) : (s.setActWord k v).env = s.env := rfl

/-! ### setRes -/

@[simp] theorem State.setRes_fsm (tag : Byte) (w : Word) : (s.setRes tag w).fsm = s.fsm := rfl
@[simp] theorem State.setRes_curOp (tag : Byte) (w : Word) : (s.setRes tag w).curOp = s.curOp := rfl
@[simp] theorem State.setRes_curAddr (tag : Byte) (w : Word) : (s.setRes tag w).curAddr = s.curAddr := rfl
@[simp] theorem State.setRes_curData (tag : Byte) (w : Word) : (s.setRes tag w).curData = s.curData := rfl
@[simp] theorem State.setRes_seqN (tag : Byte) (w : Word) : (s.setRes tag w).seqN = s.seqN := rfl
@[simp] theorem State.setRes_seqI (tag : Byte) (w : Word) : (s.setRes tag w).seqI = s.seqI := rfl
@[simp] theorem State.setRes_seqTrail (tag : Byte) (w : Word) : (s.setRes tag w).seqTrail = s.seqTrail := rfl
@[simp] theorem State.setRes_txAbyte (tag : Byte) (w : Word) : (s.setRes tag w).txAbyte = s.txAbyte := rfl
@[simp] theorem State.setRes_txData (tag : Byte) (w : Word) : (s.setRes tag w).txData = s.txData := rfl
@[simp] theorem State.setRes_txnCount (tag : Byte) (w : Word) : (s.setRes tag w).txnCount = s.txnCount := rfl
@[simp] theorem State.setRes_resStatus (tag : Byte) (w : Word) : (s.setRes tag w).resStatus = s.resStatus := rfl
@[simp] theorem State.setRes_resTag (tag : Byte) (w : Word) : (s.setRes tag w).resTag = tag := rfl
@[simp] theorem State.setRes_resWord (tag : Byte) (w : Word) : (s.setRes tag w).resWord = w := rfl
@[simp] theorem State.setRes_resValid (tag : Byte) (w : Word) : (s.setRes tag w).resValid = true := rfl
@[simp] theorem State.setRes_resAux (tag : Byte) (w : Word) : (s.setRes tag w).resAux = s.resAux := rfl
@[simp] theorem State.setRes_err (tag : Byte) (w : Word) : (s.setRes tag w).err = s.err := rfl
@[simp] theorem State.setRes_terr (tag : Byte) (w : Word) : (s.setRes tag w).terr = s.terr := rfl
@[simp] theorem State.setRes_map (tag : Byte) (w : Word) : (s.setRes tag w).map = s.map := rfl
@[simp] theorem State.setRes_act (tag : Byte) (w : Word) : (s.setRes tag w).act = s.act := rfl
@[simp] theorem State.setRes_cfg (tag : Byte) (w : Word) : (s.setRes tag w).cfg = s.cfg := rfl
@[simp] theorem State.setRes_env (tag : Byte) (w : Word) : (s.setRes tag w).env = s.env := rfl

/-! ### setResWord -/

@[simp] theorem State.setResWord_fsm (w : Word) : (s.setResWord w).fsm = s.fsm := rfl
@[simp] theorem State.setResWord_curOp (w : Word) : (s.setResWord w).curOp = s.curOp := rfl
@[simp] theorem State.setResWord_curAddr (w : Word) : (s.setResWord w).curAddr = s.curAddr := rfl
@[simp] theorem State.setResWord_curData (w : Word) : (s.setResWord w).curData = s.curData := rfl
@[simp] theorem State.setResWord_seqN (w : Word) : (s.setResWord w).seqN = s.seqN := rfl
@[simp] theorem State.setResWord_seqI (w : Word) : (s.setResWord w).seqI = s.seqI := rfl
@[simp] theorem State.setResWord_seqTrail (w : Word) : (s.setResWord w).seqTrail = s.seqTrail := rfl
@[simp] theorem State.setResWord_txAbyte (w : Word) : (s.setResWord w).txAbyte = s.txAbyte := rfl
@[simp] theorem State.setResWord_txData (w : Word) : (s.setResWord w).txData = s.txData := rfl
@[simp] theorem State.setResWord_txnCount (w : Word) : (s.setResWord w).txnCount = s.txnCount := rfl
@[simp] theorem State.setResWord_resStatus (w : Word) : (s.setResWord w).resStatus = s.resStatus := rfl
@[simp] theorem State.setResWord_resTag (w : Word) : (s.setResWord w).resTag = s.resTag := rfl
@[simp] theorem State.setResWord_resWord (w : Word) : (s.setResWord w).resWord = w := rfl
@[simp] theorem State.setResWord_resValid (w : Word) : (s.setResWord w).resValid = s.resValid := rfl
@[simp] theorem State.setResWord_resAux (w : Word) : (s.setResWord w).resAux = s.resAux := rfl
@[simp] theorem State.setResWord_err (w : Word) : (s.setResWord w).err = s.err := rfl
@[simp] theorem State.setResWord_terr (w : Word) : (s.setResWord w).terr = s.terr := rfl
@[simp] theorem State.setResWord_map (w : Word) : (s.setResWord w).map = s.map := rfl
@[simp] theorem State.setResWord_act (w : Word) : (s.setResWord w).act = s.act := rfl
@[simp] theorem State.setResWord_cfg (w : Word) : (s.setResWord w).cfg = s.cfg := rfl
@[simp] theorem State.setResWord_env (w : Word) : (s.setResWord w).env = s.env := rfl

/-! ### setAux -/

@[simp] theorem State.setAux_fsm (w : Word) : (s.setAux w).fsm = s.fsm := rfl
@[simp] theorem State.setAux_curOp (w : Word) : (s.setAux w).curOp = s.curOp := rfl
@[simp] theorem State.setAux_curAddr (w : Word) : (s.setAux w).curAddr = s.curAddr := rfl
@[simp] theorem State.setAux_curData (w : Word) : (s.setAux w).curData = s.curData := rfl
@[simp] theorem State.setAux_seqN (w : Word) : (s.setAux w).seqN = s.seqN := rfl
@[simp] theorem State.setAux_seqI (w : Word) : (s.setAux w).seqI = s.seqI := rfl
@[simp] theorem State.setAux_seqTrail (w : Word) : (s.setAux w).seqTrail = s.seqTrail := rfl
@[simp] theorem State.setAux_txAbyte (w : Word) : (s.setAux w).txAbyte = s.txAbyte := rfl
@[simp] theorem State.setAux_txData (w : Word) : (s.setAux w).txData = s.txData := rfl
@[simp] theorem State.setAux_txnCount (w : Word) : (s.setAux w).txnCount = s.txnCount := rfl
@[simp] theorem State.setAux_resStatus (w : Word) : (s.setAux w).resStatus = s.resStatus := rfl
@[simp] theorem State.setAux_resTag (w : Word) : (s.setAux w).resTag = s.resTag := rfl
@[simp] theorem State.setAux_resWord (w : Word) : (s.setAux w).resWord = s.resWord := rfl
@[simp] theorem State.setAux_resValid (w : Word) : (s.setAux w).resValid = s.resValid := rfl
@[simp] theorem State.setAux_resAux (w : Word) : (s.setAux w).resAux = w := rfl
@[simp] theorem State.setAux_err (w : Word) : (s.setAux w).err = s.err := rfl
@[simp] theorem State.setAux_terr (w : Word) : (s.setAux w).terr = s.terr := rfl
@[simp] theorem State.setAux_map (w : Word) : (s.setAux w).map = s.map := rfl
@[simp] theorem State.setAux_act (w : Word) : (s.setAux w).act = s.act := rfl
@[simp] theorem State.setAux_cfg (w : Word) : (s.setAux w).cfg = s.cfg := rfl
@[simp] theorem State.setAux_env (w : Word) : (s.setAux w).env = s.env := rfl

/-! ### setStatus -/

@[simp] theorem State.setStatus_fsm (st : Byte) : (s.setStatus st).fsm = s.fsm := rfl
@[simp] theorem State.setStatus_curOp (st : Byte) : (s.setStatus st).curOp = s.curOp := rfl
@[simp] theorem State.setStatus_curAddr (st : Byte) : (s.setStatus st).curAddr = s.curAddr := rfl
@[simp] theorem State.setStatus_curData (st : Byte) : (s.setStatus st).curData = s.curData := rfl
@[simp] theorem State.setStatus_seqN (st : Byte) : (s.setStatus st).seqN = s.seqN := rfl
@[simp] theorem State.setStatus_seqI (st : Byte) : (s.setStatus st).seqI = s.seqI := rfl
@[simp] theorem State.setStatus_seqTrail (st : Byte) : (s.setStatus st).seqTrail = s.seqTrail := rfl
@[simp] theorem State.setStatus_txAbyte (st : Byte) : (s.setStatus st).txAbyte = s.txAbyte := rfl
@[simp] theorem State.setStatus_txData (st : Byte) : (s.setStatus st).txData = s.txData := rfl
@[simp] theorem State.setStatus_txnCount (st : Byte) : (s.setStatus st).txnCount = s.txnCount := rfl
@[simp] theorem State.setStatus_resStatus (st : Byte) : (s.setStatus st).resStatus = st := rfl
@[simp] theorem State.setStatus_resTag (st : Byte) : (s.setStatus st).resTag = s.resTag := rfl
@[simp] theorem State.setStatus_resWord (st : Byte) : (s.setStatus st).resWord = s.resWord := rfl
@[simp] theorem State.setStatus_resValid (st : Byte) : (s.setStatus st).resValid = s.resValid := rfl
@[simp] theorem State.setStatus_resAux (st : Byte) : (s.setStatus st).resAux = s.resAux := rfl
@[simp] theorem State.setStatus_err (st : Byte) : (s.setStatus st).err = s.err := rfl
@[simp] theorem State.setStatus_terr (st : Byte) : (s.setStatus st).terr = s.terr := rfl
@[simp] theorem State.setStatus_map (st : Byte) : (s.setStatus st).map = s.map := rfl
@[simp] theorem State.setStatus_act (st : Byte) : (s.setStatus st).act = s.act := rfl
@[simp] theorem State.setStatus_cfg (st : Byte) : (s.setStatus st).cfg = s.cfg := rfl
@[simp] theorem State.setStatus_env (st : Byte) : (s.setStatus st).env = s.env := rfl

/-! ### mapDefaults -/

@[simp] theorem State.mapDefaults_fsm : (s.mapDefaults).fsm = s.fsm := rfl
@[simp] theorem State.mapDefaults_curOp : (s.mapDefaults).curOp = s.curOp := rfl
@[simp] theorem State.mapDefaults_curAddr : (s.mapDefaults).curAddr = s.curAddr := rfl
@[simp] theorem State.mapDefaults_curData : (s.mapDefaults).curData = s.curData := rfl
@[simp] theorem State.mapDefaults_seqN : (s.mapDefaults).seqN = s.seqN := rfl
@[simp] theorem State.mapDefaults_seqI : (s.mapDefaults).seqI = s.seqI := rfl
@[simp] theorem State.mapDefaults_seqTrail : (s.mapDefaults).seqTrail = s.seqTrail := rfl
@[simp] theorem State.mapDefaults_txAbyte : (s.mapDefaults).txAbyte = s.txAbyte := rfl
@[simp] theorem State.mapDefaults_txData : (s.mapDefaults).txData = s.txData := rfl
@[simp] theorem State.mapDefaults_txnCount : (s.mapDefaults).txnCount = s.txnCount := rfl
@[simp] theorem State.mapDefaults_resStatus : (s.mapDefaults).resStatus = s.resStatus := rfl
@[simp] theorem State.mapDefaults_resTag : (s.mapDefaults).resTag = s.resTag := rfl
@[simp] theorem State.mapDefaults_resWord : (s.mapDefaults).resWord = s.resWord := rfl
@[simp] theorem State.mapDefaults_resValid : (s.mapDefaults).resValid = s.resValid := rfl
@[simp] theorem State.mapDefaults_resAux : (s.mapDefaults).resAux = s.resAux := rfl
@[simp] theorem State.mapDefaults_err : (s.mapDefaults).err = s.err := rfl
@[simp] theorem State.mapDefaults_terr : (s.mapDefaults).terr = s.terr := rfl
@[simp] theorem State.mapDefaults_map : (s.mapDefaults).map = List.zipWith (fun m e => { m with word := e.default }) s.map s.cfg.catalog := rfl
@[simp] theorem State.mapDefaults_act : (s.mapDefaults).act = s.act := rfl
@[simp] theorem State.mapDefaults_cfg : (s.mapDefaults).cfg = s.cfg := rfl
@[simp] theorem State.mapDefaults_env : (s.mapDefaults).env = s.env := rfl

/-! ### accept -/

@[simp] theorem State.accept_fsm (op : BitVec 4) : (s.accept op).fsm = .issue := rfl
@[simp] theorem State.accept_curOp (op : BitVec 4) : (s.accept op).curOp = op := rfl
@[simp] theorem State.accept_curAddr (op : BitVec 4) : (s.accept op).curAddr = s.curAddr := rfl
@[simp] theorem State.accept_curData (op : BitVec 4) : (s.accept op).curData = s.curData := rfl
@[simp] theorem State.accept_seqN (op : BitVec 4) : (s.accept op).seqN = s.seqN := rfl
@[simp] theorem State.accept_seqI (op : BitVec 4) : (s.accept op).seqI = 0#9 := rfl
@[simp] theorem State.accept_seqTrail (op : BitVec 4) : (s.accept op).seqTrail = false := rfl
@[simp] theorem State.accept_txAbyte (op : BitVec 4) : (s.accept op).txAbyte = s.txAbyte := rfl
@[simp] theorem State.accept_txData (op : BitVec 4) : (s.accept op).txData = s.txData := rfl
@[simp] theorem State.accept_txnCount (op : BitVec 4) : (s.accept op).txnCount = 0#9 := rfl
@[simp] theorem State.accept_resStatus (op : BitVec 4) : (s.accept op).resStatus = s.resStatus := rfl
@[simp] theorem State.accept_resTag (op : BitVec 4) : (s.accept op).resTag = s.resTag := rfl
@[simp] theorem State.accept_resWord (op : BitVec 4) : (s.accept op).resWord = s.resWord := rfl
@[simp] theorem State.accept_resValid (op : BitVec 4) : (s.accept op).resValid = s.resValid := rfl
@[simp] theorem State.accept_resAux (op : BitVec 4) : (s.accept op).resAux = s.resAux := rfl
@[simp] theorem State.accept_err (op : BitVec 4) : (s.accept op).err = s.err := rfl
@[simp] theorem State.accept_terr (op : BitVec 4) : (s.accept op).terr = s.terr := rfl
@[simp] theorem State.accept_map (op : BitVec 4) : (s.accept op).map = s.map := rfl
@[simp] theorem State.accept_act (op : BitVec 4) : (s.accept op).act = s.act := rfl
@[simp] theorem State.accept_cfg (op : BitVec 4) : (s.accept op).cfg = s.cfg := rfl
@[simp] theorem State.accept_env (op : BitVec 4) : (s.accept op).env = s.env := rfl

/-! ### issue -/

@[simp] theorem State.issue_fsm (f : WireFrame) : (s.issue f).fsm = .wait := rfl
@[simp] theorem State.issue_curOp (f : WireFrame) : (s.issue f).curOp = s.curOp := rfl
@[simp] theorem State.issue_curAddr (f : WireFrame) : (s.issue f).curAddr = s.curAddr := rfl
@[simp] theorem State.issue_curData (f : WireFrame) : (s.issue f).curData = s.curData := rfl
@[simp] theorem State.issue_seqN (f : WireFrame) : (s.issue f).seqN = s.seqN := rfl
@[simp] theorem State.issue_seqI (f : WireFrame) : (s.issue f).seqI = s.seqI := rfl
@[simp] theorem State.issue_seqTrail (f : WireFrame) : (s.issue f).seqTrail = s.seqTrail := rfl
@[simp] theorem State.issue_txAbyte (f : WireFrame) : (s.issue f).txAbyte = f.abyte := rfl
@[simp] theorem State.issue_txData (f : WireFrame) : (s.issue f).txData = f.word := rfl
@[simp] theorem State.issue_txnCount (f : WireFrame) : (s.issue f).txnCount = s.txnCount + 1#9 := rfl
@[simp] theorem State.issue_resStatus (f : WireFrame) : (s.issue f).resStatus = s.resStatus := rfl
@[simp] theorem State.issue_resTag (f : WireFrame) : (s.issue f).resTag = s.resTag := rfl
@[simp] theorem State.issue_resWord (f : WireFrame) : (s.issue f).resWord = s.resWord := rfl
@[simp] theorem State.issue_resValid (f : WireFrame) : (s.issue f).resValid = s.resValid := rfl
@[simp] theorem State.issue_resAux (f : WireFrame) : (s.issue f).resAux = s.resAux := rfl
@[simp] theorem State.issue_err (f : WireFrame) : (s.issue f).err = s.err := rfl
@[simp] theorem State.issue_terr (f : WireFrame) : (s.issue f).terr = s.terr := rfl
@[simp] theorem State.issue_map (f : WireFrame) : (s.issue f).map = s.map := rfl
@[simp] theorem State.issue_act (f : WireFrame) : (s.issue f).act = s.act := rfl
@[simp] theorem State.issue_cfg (f : WireFrame) : (s.issue f).cfg = s.cfg := rfl
@[simp] theorem State.issue_env (f : WireFrame) : (s.issue f).env = { s.env with wire := s.env.wire ++ [f] } := rfl

/-! ### withCmds -/

@[simp] theorem State.withCmds_fsm (l : List (Word × Word)) : (s.withCmds l).fsm = s.fsm := rfl
@[simp] theorem State.withCmds_curOp (l : List (Word × Word)) : (s.withCmds l).curOp = s.curOp := rfl
@[simp] theorem State.withCmds_curAddr (l : List (Word × Word)) : (s.withCmds l).curAddr = s.curAddr := rfl
@[simp] theorem State.withCmds_curData (l : List (Word × Word)) : (s.withCmds l).curData = s.curData := rfl
@[simp] theorem State.withCmds_seqN (l : List (Word × Word)) : (s.withCmds l).seqN = s.seqN := rfl
@[simp] theorem State.withCmds_seqI (l : List (Word × Word)) : (s.withCmds l).seqI = s.seqI := rfl
@[simp] theorem State.withCmds_seqTrail (l : List (Word × Word)) : (s.withCmds l).seqTrail = s.seqTrail := rfl
@[simp] theorem State.withCmds_txAbyte (l : List (Word × Word)) : (s.withCmds l).txAbyte = s.txAbyte := rfl
@[simp] theorem State.withCmds_txData (l : List (Word × Word)) : (s.withCmds l).txData = s.txData := rfl
@[simp] theorem State.withCmds_txnCount (l : List (Word × Word)) : (s.withCmds l).txnCount = s.txnCount := rfl
@[simp] theorem State.withCmds_resStatus (l : List (Word × Word)) : (s.withCmds l).resStatus = s.resStatus := rfl
@[simp] theorem State.withCmds_resTag (l : List (Word × Word)) : (s.withCmds l).resTag = s.resTag := rfl
@[simp] theorem State.withCmds_resWord (l : List (Word × Word)) : (s.withCmds l).resWord = s.resWord := rfl
@[simp] theorem State.withCmds_resValid (l : List (Word × Word)) : (s.withCmds l).resValid = s.resValid := rfl
@[simp] theorem State.withCmds_resAux (l : List (Word × Word)) : (s.withCmds l).resAux = s.resAux := rfl
@[simp] theorem State.withCmds_err (l : List (Word × Word)) : (s.withCmds l).err = s.err := rfl
@[simp] theorem State.withCmds_terr (l : List (Word × Word)) : (s.withCmds l).terr = s.terr := rfl
@[simp] theorem State.withCmds_map (l : List (Word × Word)) : (s.withCmds l).map = s.map := rfl
@[simp] theorem State.withCmds_act (l : List (Word × Word)) : (s.withCmds l).act = s.act := rfl
@[simp] theorem State.withCmds_cfg (l : List (Word × Word)) : (s.withCmds l).cfg = s.cfg := rfl
@[simp] theorem State.withCmds_env (l : List (Word × Word)) : (s.withCmds l).env = { s.env with hostCmds := l } := rfl

/-! ### withReplies -/

@[simp] theorem State.withReplies_fsm (l : List Reply) : (s.withReplies l).fsm = s.fsm := rfl
@[simp] theorem State.withReplies_curOp (l : List Reply) : (s.withReplies l).curOp = s.curOp := rfl
@[simp] theorem State.withReplies_curAddr (l : List Reply) : (s.withReplies l).curAddr = s.curAddr := rfl
@[simp] theorem State.withReplies_curData (l : List Reply) : (s.withReplies l).curData = s.curData := rfl
@[simp] theorem State.withReplies_seqN (l : List Reply) : (s.withReplies l).seqN = s.seqN := rfl
@[simp] theorem State.withReplies_seqI (l : List Reply) : (s.withReplies l).seqI = s.seqI := rfl
@[simp] theorem State.withReplies_seqTrail (l : List Reply) : (s.withReplies l).seqTrail = s.seqTrail := rfl
@[simp] theorem State.withReplies_txAbyte (l : List Reply) : (s.withReplies l).txAbyte = s.txAbyte := rfl
@[simp] theorem State.withReplies_txData (l : List Reply) : (s.withReplies l).txData = s.txData := rfl
@[simp] theorem State.withReplies_txnCount (l : List Reply) : (s.withReplies l).txnCount = s.txnCount := rfl
@[simp] theorem State.withReplies_resStatus (l : List Reply) : (s.withReplies l).resStatus = s.resStatus := rfl
@[simp] theorem State.withReplies_resTag (l : List Reply) : (s.withReplies l).resTag = s.resTag := rfl
@[simp] theorem State.withReplies_resWord (l : List Reply) : (s.withReplies l).resWord = s.resWord := rfl
@[simp] theorem State.withReplies_resValid (l : List Reply) : (s.withReplies l).resValid = s.resValid := rfl
@[simp] theorem State.withReplies_resAux (l : List Reply) : (s.withReplies l).resAux = s.resAux := rfl
@[simp] theorem State.withReplies_err (l : List Reply) : (s.withReplies l).err = s.err := rfl
@[simp] theorem State.withReplies_terr (l : List Reply) : (s.withReplies l).terr = s.terr := rfl
@[simp] theorem State.withReplies_map (l : List Reply) : (s.withReplies l).map = s.map := rfl
@[simp] theorem State.withReplies_act (l : List Reply) : (s.withReplies l).act = s.act := rfl
@[simp] theorem State.withReplies_cfg (l : List Reply) : (s.withReplies l).cfg = s.cfg := rfl
@[simp] theorem State.withReplies_env (l : List Reply) : (s.withReplies l).env = { s.env with replies := l } := rfl

/-! ### withResetLine -/

@[simp] theorem State.withResetLine_fsm (l : List Bool) : (s.withResetLine l).fsm = s.fsm := rfl
@[simp] theorem State.withResetLine_curOp (l : List Bool) : (s.withResetLine l).curOp = s.curOp := rfl
@[simp] theorem State.withResetLine_curAddr (l : List Bool) : (s.withResetLine l).curAddr = s.curAddr := rfl
@[simp] theorem State.withResetLine_curData (l : List Bool) : (s.withResetLine l).curData = s.curData := rfl
@[simp] theorem State.withResetLine_seqN (l : List Bool) : (s.withResetLine l).seqN = s.seqN := rfl
@[simp] theorem State.withResetLine_seqI (l : List Bool) : (s.withResetLine l).seqI = s.seqI := rfl
@[simp] theorem State.withResetLine_seqTrail (l : List Bool) : (s.withResetLine l).seqTrail = s.seqTrail := rfl
@[simp] theorem State.withResetLine_txAbyte (l : List Bool) : (s.withResetLine l).txAbyte = s.txAbyte := rfl
@[simp] theorem State.withResetLine_txData (l : List Bool) : (s.withResetLine l).txData = s.txData := rfl
@[simp] theorem State.withResetLine_txnCount (l : List Bool) : (s.withResetLine l).txnCount = s.txnCount := rfl
@[simp] theorem State.withResetLine_resStatus (l : List Bool) : (s.withResetLine l).resStatus = s.resStatus := rfl
@[simp] theorem State.withResetLine_resTag (l : List Bool) : (s.withResetLine l).resTag = s.resTag := rfl
@[simp] theorem State.withResetLine_resWord (l : List Bool) : (s.withResetLine l).resWord = s.resWord := rfl
@[simp] theorem State.withResetLine_resValid (l : List Bool) : (s.withResetLine l).resValid = s.resValid := rfl
@[simp] theorem State.withResetLine_resAux (l : List Bool) : (s.withResetLine l).resAux = s.resAux := rfl
@[simp] theorem State.withResetLine_err (l : List Bool) : (s.withResetLine l).err = s.err := rfl
@[simp] theorem State.withResetLine_terr (l : List Bool) : (s.withResetLine l).terr = s.terr := rfl
@[simp] theorem State.withResetLine_map (l : List Bool) : (s.withResetLine l).map = s.map := rfl
@[simp] theorem State.withResetLine_act (l : List Bool) : (s.withResetLine l).act = s.act := rfl
@[simp] theorem State.withResetLine_cfg (l : List Bool) : (s.withResetLine l).cfg = s.cfg := rfl
@[simp] theorem State.withResetLine_env (l : List Bool) : (s.withResetLine l).env = { s.env with resetLine := l } := rfl

end Sys2Proof.Machine
end

