-- ==== Sys2Proof/Laws/Ops.lean ====
section
/-! SUPPORT. What each shared operation can do, said once: the enabling guards, the checks that raise an error, the absence
of an internal fault, and that the map's operations keep its form (its tags and its length, 10 R36). -/

namespace Sys2Proof.Machine

variable {s t : State} {f : State → Result}

/-! ### Guards -/

theorem whenIdle_of_ready (h : s.Ready) : whenIdle s f = f s := by
  simp [whenIdle, h.noFault, h.idle]

/-- A guarded command that answers next either ran in a ready state or waited (30 R92). -/
theorem whenIdle_next (h : whenIdle s f = .next t) :
    s.internalFault = none ∧ ((s.fsm = .idle ∧ f s = .next t) ∨ (s.fsm ≠ .idle ∧ t = s)) := by
  unfold whenIdle at h
  split at h
  · cases h
  · rename_i hf
    split at h
    · exact ⟨hf, .inl ⟨‹_›, h⟩⟩
    · cases h; exact ⟨hf, .inr ⟨‹_›, rfl⟩⟩

theorem whenIssue_of_issue (h : s.internalFault = none) (hf : s.fsm = .issue) : whenIssue s f = f s := by
  simp [whenIssue, h, hf]

/-- A guarded frame that answers next was issued while `FSM = ISSUE`. -/
theorem whenIssue_next (h : whenIssue s f = .next t) :
    s.internalFault = none ∧ s.fsm = .issue ∧ f s = .next t := by
  unfold whenIssue at h
  split at h
  · cases h
  · split at h
    · exact ⟨‹_›, ‹_›, h⟩
    · cases h

/-! ### Checks -/

section
variable {a x : Byte} {k : Nat} {d : FieldDesc} {m : MapSlot} {r : Result}

theorem withSlot_none {g : Nat → Result} (h : s.cfg.slot a = none) :
    withSlot a s g = .next (s.raise .unknownAddress) := by simp [withSlot, failWith, h]

theorem withSlot_some {g : Nat → Result} (h : s.cfg.slot a = some k) : withSlot a s g = g k := by simp [withSlot, h]

theorem withField_none {g : FieldDesc → Result} (h : s.cfg.fmux k x.toNat = none) :
    withField k x s g = .next (s.raise .badField) := by simp [withField, failWith, h]

theorem withField_some {g : FieldDesc → Result} (h : s.cfg.fmux k x.toNat = some d) : withField k x s g = g d := by
  simp [withField, h]

theorem withRes_holds (h : s.resHolds a = true) : withRes a s r = r := by simp [withRes, h]

theorem withRes_not (h : s.resHolds a = false) : withRes a s r = .next (s.raise .unexpectedAddress) := by
  simp [withRes, failWith, h]

theorem withMapSlot_some {g : MapSlot → Result} (h : s.map[k]? = some m) : withMapSlot k s g = g m := by
  simp [withMapSlot, h]

end

/-! ### No internal fault -/

/-- What the absence of an internal fault means (60 R218). -/
theorem internalFault_eq_none : s.internalFault = none ↔
    s.fsm ≠ .reserved3 ∧ s.map.map (·.tag) = s.cfg.catalog.map (·.addr) ∧ s.tagsKnown = true ∧
      s.act.length = s.cfg.maxActions := by
  unfold State.internalFault
  by_cases h1 : s.fsm = .reserved3
  · simp [h1]
  · by_cases h2 : s.map.map (·.tag) = s.cfg.catalog.map (·.addr)
    · cases h3 : s.tagsKnown
      · simp [h1, h2]
      · simp [h1, h2]
    · simp [h1, h2]

/-- A slot of the catalog is below `N_REGS` (41 R130). -/
theorem slot_lt {c : Config} {a : Byte} {k : Nat} (h : c.slot a = some k) : k < c.catalog.length := by
  have := List.findIdx?_eq_some_iff_findIdx_eq.mp h
  exact this.1

/-- Every slot of the catalog is a slot of the map, under the catalog's tag (10 R36, R37). -/
theorem mapSlot_of_noFault (h : s.internalFault = none) {k : Nat} {e : CatalogEntry} (hk : s.cfg.catalog[k]? = some e) :
    ∃ m, s.map[k]? = some m ∧ m.tag = e.addr := by
  have ht := (internalFault_eq_none.mp h).2.1
  have h1 : (s.map.map (·.tag))[k]? = some e.addr := by rw [ht]; simp [hk]
  simpa [List.getElem?_map, Option.map_eq_some_iff] using h1

/-! ### The map's operations keep its form -/

theorem setMapWord_tags (s : State) (k : Nat) (v : Word) :
    (s.setMapWord k v).map.map (·.tag) = s.map.map (·.tag) := by
  apply List.ext_getElem?
  intro i
  simp only [State.setMapWord_map, List.getElem?_map, List.getElem?_modify]
  cases s.map[i]? <;> by_cases h : k = i <;> simp [h]

theorem mapDefaults_tags (h : s.internalFault = none) : s.mapDefaults.map.map (·.tag) = s.map.map (·.tag) := by
  have ht := (internalFault_eq_none.mp h).2.1
  have hl : s.map.length = s.cfg.catalog.length := by simpa using congrArg List.length ht
  apply List.ext_getElem?
  intro i
  simp only [State.mapDefaults_map, List.getElem?_map, List.getElem?_zipWith]
  by_cases hi : i < s.map.length
  · have hi' : i < s.cfg.catalog.length := by omega
    simp [hi, hi']
  · have hi' : ¬ i < s.cfg.catalog.length := by omega
    simp [hi]

theorem setActWord_length (s : State) (k : Nat) (v : Word) : (s.setActWord k v).act.length = s.act.length := by
  simp

theorem setAct_length (s : State) (k : Nat) (e : Action) : (s.setAct k e).act.length = s.act.length := by
  simp

/-- The reset state of a configuration has no internal fault. -/
theorem resetOf_noFault (c : Config) (env : Env) : (State.resetOf c env).internalFault = none := by
  rw [internalFault_eq_none]
  refine ⟨by simp [State.resetOf], by simp [State.resetOf], ?_, by simp [State.resetOf]⟩
  simp [State.tagsKnown, State.resetOf, Action.empty]

end Sys2Proof.Machine
end

