-- ==== Sys2Proof/Laws/PerInstr.lean ====
section
/-! SUPPORT. A law of every instruction as it is encoded: a host command's word has its reserved bits clear and a legal
opcode (30 R88, R96), and a frame's address byte has the direction of its kind (30 R81 to R83). -/

namespace Sys2Proof.Laws.EncodedForm

/-- The encoded form of `i` is legal. -/
def Statement (i : Instr) : Prop :=
  match encode i with
  | .cmd w _ => cmdRsv1 w = 0 ∧ cmdRsv0 w = 0 ∧ cmdOp w ∉ [0x0#4, 0xE#4, 0xF#4]
  | .frame f => f.abyte.getLsbD 7 = (i.mnemonic == "WRITE_FRAME")

theorem readReg (a : Byte) : Statement (.readReg a) := by simp [Statement, encode]
theorem writeReg (a : Byte) (v : Word) : Statement (.writeReg a v) := by simp [Statement, encode]
theorem bulk (n : Byte) : Statement (.bulk n) := by simp [Statement, encode]
theorem actionWrite (k : Byte) (kind : ActKind) (a : Byte) (v : Word) : Statement (.actionWrite k kind a v) := by
  simp [Statement, encode]
theorem actionRead (k : Byte) : Statement (.actionRead k) := by simp [Statement, encode]
theorem mapSetState (a : Byte) (v : Word) : Statement (.mapSetState a v) := by simp [Statement, encode]
theorem mapStoreRes : Statement .mapStoreRes := by simp [Statement, encode]
theorem mapGet (a : Byte) : Statement (.mapGet a) := by simp [Statement, encode]
theorem mapDefault : Statement .mapDefault := by simp [Statement, encode]
theorem stateCheck (a : Byte) : Statement (.stateCheck a) := by simp [Statement, encode]
theorem stateSet (a : Byte) (v : Word) : Statement (.stateSet a v) := by simp [Statement, encode]
theorem fieldGet (a : Byte) (f : Byte) : Statement (.fieldGet a f) := by simp [Statement, encode]
theorem fieldGetRes (a : Byte) (f : Byte) : Statement (.fieldGetRes a f) := by simp [Statement, encode]
theorem fieldSet (a : Byte) (f : Byte) (v : Word) : Statement (.fieldSet a f v) := by simp [Statement, encode]
theorem fieldSetRes (a : Byte) (f : Byte) (v : Word) : Statement (.fieldSetRes a f v) := by simp [Statement, encode]
theorem addrInfo (a : Byte) : Statement (.addrInfo a) := by simp [Statement, encode]
theorem addrEnum (k : Byte) : Statement (.addrEnum k) := by simp [Statement, encode]
theorem readFrame (a : Byte) : Statement (.readFrame a) := by
  simp [Statement, encode, readAbyte, Instr.mnemonic]
theorem writeFrame (a : Byte) (v : Word) : Statement (.writeFrame a v) := by
  simp [Statement, encode, writeAbyte, Instr.mnemonic]

end Sys2Proof.Laws.EncodedForm
end

