-- ==== Sys2Proof/Laws/Steps.lean ====
section
/-! SUPPORT. What a command, a reply and a step can do, each said once, for later proofs to cite: `exec_effect`,
`replyOk_effect`, `step_effect`. Every effect is the state it leaves, so what it does not name is unchanged. -/

namespace Sys2Proof.Machine

/-! ### Inversion of the shared checks -/

section
variable {s t : State} {a x : Byte} {k : Nat} {r : Result}

/-- A check on the address either ends the command in UNKNOWN_ADDRESS or passes the slot on. -/
theorem withSlot_next {g : Nat → Result} (h : withSlot a s g = .next t) :
    t = s.raise .unknownAddress ∨ ∃ k, s.cfg.slot a = some k ∧ g k = .next t := by
  unfold withSlot failWith at h
  split at h
  · cases h; exact .inl rfl
  · exact .inr ⟨_, ‹_›, h⟩

/-- A check on the field either ends the command in BAD_FIELD or passes the field on. -/
theorem withField_next {g : FieldDesc → Result} (h : withField k x s g = .next t) :
    t = s.raise .badField ∨ ∃ d, s.cfg.fmux k x.toNat = some d ∧ g d = .next t := by
  unfold withField failWith at h
  split at h
  · cases h; exact .inl rfl
  · exact .inr ⟨_, ‹_›, h⟩

/-- A typed extraction either ends the command in UNEXPECTED_ADDRESS or lets it go on. -/
theorem withRes_next (h : withRes a s r = .next t) : t = s.raise .unexpectedAddress ∨ r = .next t := by
  unfold withRes failWith at h
  split at h
  · exact .inr h
  · cases h; exact .inl rfl

/-- A command that answers next has read a slot that exists. -/
theorem withMapSlot_next {g : MapSlot → Result} (h : withMapSlot k s g = .next t) :
    ∃ m, s.map[k]? = some m ∧ g m = .next t := by
  unfold withMapSlot at h
  split at h
  · cases h
  · exact ⟨_, ‹_›, h⟩

theorem complete_next {u : State} (h : complete u = .next t) : t = u.succeed := by cases h; rfl
theorem failWith_next {e : ErrCode} (h : failWith e s = .next t) : t = s.raise e := by cases h; rfl
end

theorem known_of_slot {s : State} {a : Byte} {k : Nat} (h : s.cfg.slot a = some k) : s.known a = true := by
  simp [State.known, h]

/-- A slot the decoder gives is a slot of the map, under its own address (41 R143). -/
theorem mapSlot_of_slot {s : State} (hs : s.Ready) {a : Byte} {k : Nat} (h : s.cfg.slot a = some k) :
    ∃ m, s.map[k]? = some m ∧ m.tag.setWidth 8 = a := by
  have hk := slot_lt h
  obtain ⟨m, h1, h2⟩ := mapSlot_of_noFault hs.noFault (List.getElem?_eq_getElem hk)
  refine ⟨m, h1, ?_⟩
  have := List.findIdx?_eq_some_iff_getElem.mp h
  obtain ⟨hk', e, -⟩ := this
  simpa [h2] using e

/-- No internal fault, part by part (60 R218, 41 R146). -/
theorem noFault_iff {s : State} : s.internalFault = none ↔
    s.fsm ≠ .reserved3 ∧ s.map.map (·.tag) = s.cfg.catalog.map (·.addr) ∧
      (∀ e ∈ s.act, e.valid = true → s.known e.tag = true) ∧ (s.resValid = true → s.known s.resTag = true) ∧
      s.act.length = s.cfg.maxActions := by
  rw [internalFault_eq_none]
  simp only [State.tagsKnown, Bool.and_eq_true, List.all_eq_true]
  constructor
  · rintro ⟨a, b, ⟨c, d⟩, e⟩
    exact ⟨a, b, fun e he hv => by simpa [hv] using c e he, fun hv => by simpa [hv] using d, e⟩
  · rintro ⟨a, b, c, d, e⟩
    refine ⟨a, b, ⟨fun e he => ?_, ?_⟩, e⟩
    · cases hv : e.valid <;> simp [c e he, hv]
    · cases hv : s.resValid <;> simp [hv, d]

/-! ### Commands -/

/-- What a host command can do in a ready state: end in an error of its own, write what its kind
writes and succeed, or start a transaction command. -/
inductive CommandEffect (i : Instr) (s : State) : State → Prop
  | error (e : ErrCode) (h : e ∈ errorsOf i) : CommandEffect i s (s.raise e)
  | query (w : Word) (h : writesAux i = true) : CommandEffect i s (s.setAux w).succeed
  | check : CommandEffect i s s.succeed
  | resWord (w : Word) (h : writesRes i = true) : CommandEffect i s (s.setResWord w).succeed
  | res (tag : Byte) (w : Word) (h : writesRes i = true) (hk : s.known tag = true) :
      CommandEffect i s (s.setRes tag w).succeed
  | resAux (tag : Byte) (w x : Word) (h : writesRes i = true) (hx : writesAux i = true) (hk : s.known tag = true) :
      CommandEffect i s ((s.setRes tag w).setAux x).succeed
  | mapWord (k : Nat) (w : Word) (h : writesMap i = true) : CommandEffect i s (s.setMapWord k w).succeed
  | mapDefaults (h : writesMap i = true) : CommandEffect i s s.mapDefaults.succeed
  | action (k : Byte) (kind : ActKind) (a : Byte) (v : Word) (h : i = .actionWrite k kind a v) (hk : s.known a = true) :
      CommandEffect i s (s.setAct k.toNat { valid := true, kind := kind, tag := a, word := v }).succeed
  | readReg (a : Byte) (h : i = .readReg a) (hr : s.cfg.readable a = true) :
      CommandEffect i s { s.accept opReadReg with curAddr := a }
  | writeReg (a : Byte) (v : Word) (h : i = .writeReg a v) (hw : s.cfg.writable a = true) :
      CommandEffect i s { s.accept opWriteReg with curAddr := a, curData := v }
  | bulkNone (h : i = .bulk 0#8) : CommandEffect i s { s with txnCount := 0#9 }.succeed
  | bulk (n : Byte) (h : i = .bulk n) (hn : 1 ≤ n.toNat) (hv : s.actionsValid n.toNat = true) :
      CommandEffect i s { s.accept opBulk with seqN := n }

/-- A host command that answers next in a ready state has one of the effects above. -/
theorem exec_effect {i : Instr} {s t : State} (hs : s.Ready) (h : exec i s = .next t) : CommandEffect i s t := by
  cases i <;> simp only [exec, execReadReg, execWriteReg, execBulk, execActionWrite, execActionRead,
    execMapSetState, execMapStoreRes, execMapGet, execMapDefault, execStateCheck, execStateSet, execFieldGet,
    execFieldGetRes, execFieldSet, execFieldSetRes, execAddrInfo, execAddrEnum, whenIdle_of_ready hs] at h
  case readReg a =>
    obtain rfl | ⟨k, -, h⟩ := withSlot_next h
    · exact .error _ (by simp [errorsOf])
    · split at h
      · cases h; exact .readReg a rfl ‹_›
      · rw [failWith_next h]; exact .error _ (by simp [errorsOf])
  case writeReg a v =>
    obtain rfl | ⟨k, -, h⟩ := withSlot_next h
    · exact .error _ (by simp [errorsOf])
    · split at h
      · cases h; exact .writeReg a v rfl ‹_›
      · rw [failWith_next h]; exact .error _ (by simp [errorsOf])
  case bulk n =>
    split at h
    · split at h
      · rename_i _ hn; subst hn; rw [complete_next h]; exact .bulkNone rfl
      · rename_i hv hn
        cases h
        refine .bulk n rfl ?_ hv
        have : n.toNat ≠ 0 := fun hh => hn (BitVec.eq_of_toNat_eq hh)
        omega
    · rw [failWith_next h]; exact .error _ (by simp [errorsOf])
  case actionWrite k kind a v =>
    split at h
    · obtain rfl | ⟨j, hj, h⟩ := withSlot_next h
      · exact .error _ (by simp [errorsOf])
      · rw [complete_next h]; exact .action _ _ _ _ rfl (known_of_slot hj)
    · rw [failWith_next h]; exact .error _ (by simp [errorsOf])
  case actionRead k =>
    split at h
    · rw [failWith_next h]; exact .error _ (by simp [errorsOf])
    · rename_i e he
      split at h
      · rw [complete_next h]
        have := (internalFault_eq_none.1 hs.noFault).2.2.1
        simp only [State.tagsKnown, Bool.and_eq_true, List.all_eq_true] at this
        exact .resAux _ _ _ rfl rfl (by simpa [*] using this.1 e (List.mem_of_getElem? he))
      · rw [failWith_next h]; exact .error _ (by simp [errorsOf])
  case mapSetState a v =>
    obtain rfl | ⟨k, -, h⟩ := withSlot_next h
    · exact .error _ (by simp [errorsOf])
    · rw [complete_next h]; exact .mapWord _ _ rfl
  case mapStoreRes =>
    split at h
    · split at h
      · cases h
      · rw [complete_next h]; exact .mapWord _ _ rfl
    · rw [failWith_next h]; exact .error _ (by simp [errorsOf])
  case mapGet a =>
    obtain rfl | ⟨k, hk, h⟩ := withSlot_next h
    · exact .error _ (by simp [errorsOf])
    · obtain ⟨m, hm, h⟩ := withMapSlot_next h
      obtain ⟨m', hm', ha⟩ := mapSlot_of_slot hs hk
      rw [hm] at hm'; cases hm'
      rw [complete_next h]
      exact .res _ _ rfl (by rw [ha]; exact known_of_slot hk)
  case mapDefault => rw [complete_next h]; exact .mapDefaults rfl
  case stateCheck a =>
    obtain rfl | ⟨k, -, h⟩ := withSlot_next h
    · exact .error _ (by simp [errorsOf])
    · obtain rfl | h := withRes_next h
      · exact .error _ (by simp [errorsOf])
      · rw [complete_next h]; exact .check
  case stateSet a v =>
    obtain rfl | ⟨k, -, h⟩ := withSlot_next h
    · exact .error _ (by simp [errorsOf])
    · obtain rfl | h := withRes_next h
      · exact .error _ (by simp [errorsOf])
      · rw [complete_next h]; exact .resWord _ rfl
  case fieldGet a f =>
    obtain rfl | ⟨k, -, h⟩ := withSlot_next h
    · exact .error _ (by simp [errorsOf])
    · obtain rfl | ⟨d, -, h⟩ := withField_next h
      · exact .error _ (by simp [errorsOf])
      · obtain ⟨m, -, h⟩ := withMapSlot_next h
        rw [complete_next h]; exact .query _ rfl
  case fieldGetRes a f =>
    obtain rfl | ⟨k, -, h⟩ := withSlot_next h
    · exact .error _ (by simp [errorsOf])
    · obtain rfl | ⟨d, -, h⟩ := withField_next h
      · exact .error _ (by simp [errorsOf])
      · obtain rfl | h := withRes_next h
        · exact .error _ (by simp [errorsOf])
        · rw [complete_next h]; exact .query _ rfl
  case fieldSet a f v =>
    obtain rfl | ⟨k, -, h⟩ := withSlot_next h
    · exact .error _ (by simp [errorsOf])
    · obtain rfl | ⟨d, -, h⟩ := withField_next h
      · exact .error _ (by simp [errorsOf])
      · obtain ⟨m, -, h⟩ := withMapSlot_next h
        rw [complete_next h]; exact .mapWord _ _ rfl
  case fieldSetRes a f v =>
    obtain rfl | ⟨k, -, h⟩ := withSlot_next h
    · exact .error _ (by simp [errorsOf])
    · obtain rfl | ⟨d, -, h⟩ := withField_next h
      · exact .error _ (by simp [errorsOf])
      · obtain rfl | h := withRes_next h
        · exact .error _ (by simp [errorsOf])
        · rw [complete_next h]; exact .resWord _ rfl
  case addrInfo a =>
    split at h
    · rw [failWith_next h]; exact .error _ (by simp [errorsOf])
    · rw [complete_next h]; exact .query _ rfl
  case addrEnum k =>
    split at h
    · rw [failWith_next h]; exact .error _ (by simp [errorsOf])
    · rw [complete_next h]; exact .query _ rfl
  case readFrame a => simp [execReadFrame, whenIssue, hs.noFault, hs.idle] at h
  case writeFrame a v => simp [execWriteFrame, whenIssue, hs.noFault, hs.idle] at h

/-! ### The states of a BULK's actions -/

/-- Where no command is in progress no action has a state. -/
theorem phase_of_idle {s : State} (h : s.fsm = .idle) (j : Nat) : s.phase j = none := by
  simp [State.phase, State.bulkInProgress, h]

/-- Where no command is in progress no answer resolves an action. -/
theorem resolves_of_idle {s : State} (h : s.fsm = .idle) (j : Nat) : s.resolves j = false := by
  simp [State.resolves, State.bulkInProgress, h]

/-- The state of an action of a BULK about to issue transaction `SEQ_I`. -/
theorem phase_of_issue {s : State} (ho : s.curOp = opBulk) (hf : s.fsm = .issue) {j : Nat} (hj : j < s.seqN.toNat) :
    s.phase j = some (if s.seqTrail = false ∧ s.seqI.toNat ≤ j then .pending
      else if s.seqI.toNat = j + 1 ∨ (j + 1 = s.seqN.toNat ∧ s.isReadAt j = true ∧ s.seqTrail = true) then .sent
      else .resolved) := by
  have : s.seqI.toNat < j ∨ s.seqI.toNat = j ↔ s.seqI.toNat ≤ j := by omega
  simp [State.phase, State.bulkInProgress, State.isPending, State.isSent, ho, hf, hj, this]

/-- The state of an action of a BULK that waits for the answer to transaction `SEQ_I`. -/
theorem phase_of_wait {s : State} (ho : s.curOp = opBulk) (hf : s.fsm = .wait) {j : Nat} (hj : j < s.seqN.toNat) :
    s.phase j = some (if s.seqTrail = false ∧ s.seqI.toNat < j then .pending
      else if (s.seqTrail = false ∧ s.seqI.toNat = j) ∨ s.seqI.toNat = j + 1 ∨
        (j + 1 = s.seqN.toNat ∧ s.isReadAt j = true ∧ s.seqTrail = true) then .sent
      else .resolved) := by
  simp [State.phase, State.bulkInProgress, State.isPending, State.isSent, ho, hf, hj]

/-- The actions whose resolution the coming OK answer of a BULK is. -/
theorem resolves_of_wait {s : State} (ho : s.curOp = opBulk) (hf : s.fsm = .wait) (j : Nat) :
    s.resolves j = true ↔ (j + 1 < s.seqN.toNat ∧ s.seqI.toNat = j + 1) ∨
      (j + 1 = s.seqN.toNat ∧ s.isReadAt j = true ∧ s.seqTrail = true) ∨
      (j + 1 = s.seqN.toNat ∧ s.isReadAt j = false ∧ s.seqI.toNat = j) := by
  by_cases h : j + 1 < s.seqN.toNat
  · have : j + 1 ≠ s.seqN.toNat := by omega
    simp [State.resolves, State.bulkInProgress, ho, hf, h, this]
  · cases hr : s.isReadAt j <;> simp [State.resolves, State.bulkInProgress, ho, hf, h, hr]

/-! ### Replies -/

/-- What a `Reply(OK(st, rx))` can do: the continuation of the command in progress. -/
inductive ReplyEffect (st : Byte) (rx : Word) (s : State) : State → Prop
  | readRegArmed (h : s.curOp = opReadReg) (hi : s.seqI.toNat = 0) :
      ReplyEffect st rx s { s with seqI := 1#9, fsm := .issue }
  | readRegDone (h : s.curOp = opReadReg) (hi : s.seqI.toNat = 1) :
      ReplyEffect st rx s { (s.setStatus st).setRes s.curAddr rx with err := .none, fsm := .idle }
  | writeRegDone (h : s.curOp = opWriteReg) : ReplyEffect st rx s { s.setStatus st with err := .none, fsm := .idle }
  | bulkNext (h : s.curOp = opBulk) (ht : s.seqTrail = false) (hi : s.seqI.toNat + 1 < s.seqN.toNat) :
      ReplyEffect st rx s { s.resolvePrevious s.seqI.toNat rx with seqI := s.seqI + 1#9, fsm := .issue }
  | bulkToTrailing (h : s.curOp = opBulk) (ht : s.seqTrail = false) (hi : s.seqI.toNat + 1 = s.seqN.toNat)
      (hr : s.isReadAt s.seqI.toNat = true) :
      ReplyEffect st rx s
        { s.resolvePrevious s.seqI.toNat rx with seqTrail := true, seqI := s.seqN.setWidth 9, fsm := .issue }
  | bulkDone (h : s.curOp = opBulk) (ht : s.seqTrail = false) (hi : s.seqI.toNat + 1 = s.seqN.toNat)
      (hr : s.isReadAt s.seqI.toNat = false) :
      ReplyEffect st rx s { (s.resolvePrevious s.seqI.toNat rx).setStatus st with err := .none, fsm := .idle }
  | trailingDone (h : s.curOp = opBulk) (ht : s.seqTrail = true) (hn : 1 ≤ s.seqN.toNat) :
      ReplyEffect st rx s
        { (s.setActWord (s.seqN.toNat - 1) rx).setStatus st with err := .none, fsm := .idle }

/-- Resolving an action writes nothing but words of the action buffer. -/
theorem resolvePrevious_eq (s : State) (i : Nat) (rx : Word) :
    s.resolvePrevious i rx = { s with act := (s.resolvePrevious i rx).act } := by
  unfold State.resolvePrevious
  split
  · rfl
  · split
    · split <;> rfl
    · rfl

/-- The entries after resolving action `i - 1`. -/
theorem resolvePrevious_act (s : State) (i : Nat) (rx : Word) (j : Nat) :
    (s.resolvePrevious i rx).act[j]? =
      (s.act[j]?).map fun e => if j + 1 = i ∧ e.kind = .read then { e with word := rx } else e := by
  unfold State.resolvePrevious
  split
  · cases s.act[j]? <;> simp
  · rename_i k
    split
    · rename_i e he
      split
      · simp only [State.setActWord_act, List.getElem?_modify]
        by_cases h : k = j
        · subst h; simp [*]
        · simp [h, Ne.symm h]
      · by_cases h : j = k
        · subst h; simp [*]
        · cases s.act[j]? <;> simp [h]
    · rename_i hn
      by_cases h : j = k
      · subst h; simp [hn]
      · cases s.act[j]? <;> simp [h]

/-- Writing the word of an entry that exists. -/
theorem setActWord_act_of {s : State} {j : Nat} {e : Action} (h : s.act[j]? = some e) (v : Word) :
    (s.setActWord j v).act = s.act.set j { e with word := v } := by
  refine List.ext_getElem? fun i => ?_
  obtain ⟨hj, rfl⟩ := List.getElem?_eq_some_iff.1 h
  simp only [State.setActWord_act, List.getElem?_modify, List.getElem?_set]
  by_cases hi : j = i
  · subst hi; simp [hj]
  · simp [hi]

/-- Resolving an action leaves the buffer as it is or writes the word of one read action, the one before. -/
theorem resolvePrevious_set (s : State) (i : Nat) (rx : Word) :
    (s.resolvePrevious i rx).act = s.act ∨ ∃ j e, j + 1 = i ∧ s.act[j]? = some e ∧ e.kind = .read ∧
      (s.resolvePrevious i rx).act = s.act.set j { e with word := rx } := by
  unfold State.resolvePrevious
  split
  · exact .inl rfl
  · rename_i j
    split
    · rename_i e he
      split
      · exact .inr ⟨j, e, rfl, he, ‹_›, setActWord_act_of he rx⟩
      · exact .inl rfl
    · exact .inl rfl

/-- Resolving an action keeps the size of the action buffer. -/
theorem resolvePrevious_length (s : State) (i : Nat) (rx : Word) :
    (s.resolvePrevious i rx).act.length = s.act.length := by
  unfold State.resolvePrevious
  split
  · rfl
  · split
    · split <;> simp
    · rfl

/-- An OK result that answers next has one of the effects above. -/
theorem replyOk_effect {st : Byte} {rx : Word} {s t : State} (h : s.replyOk st rx = .next t) :
    ReplyEffect st rx s t := by
  unfold State.replyOk at h
  split at h
  · rename_i ho
    unfold State.readRegReply at h
    split at h
    · cases h; exact .readRegArmed ho ‹_›
    · cases h; exact .readRegDone ho ‹_›
    · cases h
  · split at h
    · cases h; exact .writeRegDone ‹_›
    · split at h
      · rename_i ho
        unfold State.bulkReply at h
        split at h
        · rename_i ht
          split at h
          · cases h
          · rename_i j hj
            split at h
            · cases h
            · cases h
              have := ReplyEffect.trailingDone (st := st) (rx := rx) ho ht (by omega)
              rwa [hj] at this
        · rename_i ht
          have ht : s.seqTrail = false := by simpa using ht
          simp only at h
          split at h
          · cases h; exact .bulkNext ho ht ‹_›
          · split at h
            · rename_i hi
              unfold State.bulkEnd at h
              split at h
              · cases h
              · rename_i e he
                have hread : s.isReadAt s.seqI.toNat = decide (e.kind = .read) := by
                  rw [resolvePrevious_act] at he
                  simp only [Option.map_eq_some_iff] at he
                  obtain ⟨e', he', rfl⟩ := he
                  simp [State.isReadAt, he']
                split at h
                · rename_i hk
                  cases h
                  have := ReplyEffect.bulkToTrailing (st := st) (rx := rx) ho ht hi (by simp [hread, hk])
                  rw [resolvePrevious_eq] at this ⊢; exact this
                · rename_i hk
                  cases h; exact .bulkDone ho ht hi (by simp [hread, hk])
            · cases h
      · cases h

/-! ### Steps -/

@[simp] theorem ticked_fsm (s : State) : s.ticked.fsm = s.fsm := rfl
@[simp] theorem ticked_curOp (s : State) : s.ticked.curOp = s.curOp := rfl
@[simp] theorem ticked_curAddr (s : State) : s.ticked.curAddr = s.curAddr := rfl
@[simp] theorem ticked_curData (s : State) : s.ticked.curData = s.curData := rfl
@[simp] theorem ticked_seqN (s : State) : s.ticked.seqN = s.seqN := rfl
@[simp] theorem ticked_seqI (s : State) : s.ticked.seqI = s.seqI := rfl
@[simp] theorem ticked_seqTrail (s : State) : s.ticked.seqTrail = s.seqTrail := rfl
@[simp] theorem ticked_txAbyte (s : State) : s.ticked.txAbyte = s.txAbyte := rfl
@[simp] theorem ticked_txData (s : State) : s.ticked.txData = s.txData := rfl
@[simp] theorem ticked_txnCount (s : State) : s.ticked.txnCount = s.txnCount := rfl
@[simp] theorem ticked_resStatus (s : State) : s.ticked.resStatus = s.resStatus := rfl
@[simp] theorem ticked_resTag (s : State) : s.ticked.resTag = s.resTag := rfl
@[simp] theorem ticked_resWord (s : State) : s.ticked.resWord = s.resWord := rfl
@[simp] theorem ticked_resValid (s : State) : s.ticked.resValid = s.resValid := rfl
@[simp] theorem ticked_resAux (s : State) : s.ticked.resAux = s.resAux := rfl
@[simp] theorem ticked_err (s : State) : s.ticked.err = s.err := rfl
@[simp] theorem ticked_terr (s : State) : s.ticked.terr = s.terr := rfl
@[simp] theorem ticked_map (s : State) : s.ticked.map = s.map := rfl
@[simp] theorem ticked_act (s : State) : s.ticked.act = s.act := rfl
@[simp] theorem ticked_cfg (s : State) : s.ticked.cfg = s.cfg := rfl
@[simp] theorem ticked_env (s : State) : s.ticked.env = { s.env with resetLine := s.env.resetLine.tail } := rfl
@[simp] theorem ticked_frame (s : State) : s.ticked.frame = s.frame := rfl
@[simp] theorem ticked_internalFault (s : State) : s.ticked.internalFault = s.internalFault := rfl

/-- Where the reset line is quiet for good, `ticked` changes nothing. -/
theorem ticked_eq_self (s : State) (h : s.env.resetLine = []) : s.ticked = s := by
  cases s with
  | mk => rename_i env; cases env; simp_all [State.ticked, State.withResetLine]

theorem noReset_of_nil {s : State} (h : s.env.resetLine = []) : s.noReset := by simp [State.noReset, h]

/-- Without `Reset` a step is the engine's. -/
theorem step_of_noReset {s : State} (h : s.noReset) : step s = s.ticked.engineStep := by
  unfold step State.nextStep
  unfold State.noReset at h
  cases hr : s.env.resetLine with
  | nil => simp only [ticked_eq_self s hr]
  | cons b r => cases b <;> simp_all [State.ticked]

theorem engineStep_idle {s : State} (h : s.internalFault = none) (hf : s.fsm = .idle) :
    s.engineStep = s.hostCmdStep := by simp [State.engineStep, h, hf]

theorem engineStep_issue {s : State} (h : s.internalFault = none) (hf : s.fsm = .issue) :
    s.engineStep = s.issueStep := by simp [State.engineStep, h, hf]

theorem engineStep_wait {s : State} (h : s.internalFault = none) (hf : s.fsm = .wait) :
    s.engineStep = s.replyStep := by simp [State.engineStep, h, hf]

/-- The frame FRAME(state) decodes to the wire instruction that hands over exactly that frame (42 R161). -/
theorem runDecoded_frame (s : State) (f : WireFrame) (h : s.internalFault = none) (hi : s.fsm = .issue)
    (hf : s.frame = some f) : runDecoded (.frame f) s = .next (s.issue f) := by
  have key : ∀ (b : Byte) (w : Word), (b.getLsbD 7 = false → w = readFill) → f = mkFrame b w →
      runDecoded (.frame f) s = .next (s.issue f) := by
    intro b w hw hh
    subst hh
    cases h7 : b.getLsbD 7
    · have h8 : readAbyte b = b := by clear hf hw; revert b; decide
      simp only [runDecoded, decode, decodeFrame, abyte_mkFrame, h7, Bool.false_eq_true, if_false, exec,
        execReadFrame, whenIssue_of_issue h hi, h8, hw h7]
    · have h8 : writeAbyte (readAbyte b) = b := by clear hf hw; revert b; decide
      simp only [runDecoded, decode, decodeFrame, abyte_mkFrame, word_mkFrame, h7, if_true, exec, execWriteFrame,
        whenIssue_of_issue h hi, h8]
  have h80 : ∀ b : Byte, (b ||| 0x80#8).getLsbD 7 = true := by decide
  unfold State.frame at hf
  split at hf
  · cases hf; exact key _ _ (fun _ => rfl) rfl
  · split at hf
    · cases hf; refine key _ _ (fun h => ?_) rfl; rw [h80] at h; cases h
    · split at hf
      · split at hf
        · split at hf
          · cases hf
          · obtain ⟨e, -, he⟩ := Option.map_eq_some_iff.1 hf
            exact key _ _ (fun _ => rfl) he.symm
        · obtain ⟨e, -, he⟩ := Option.map_eq_some_iff.1 hf
          cases hk : e.kind
          · exact key e.tag readFill (fun _ => rfl) (by rw [← he, Action.frame, hk])
          · refine key (e.tag ||| 0x80#8) e.word (fun h => ?_) (by rw [← he, Action.frame, hk])
            rw [h80] at h; cases h
      · cases hf

/-! ### Exchanging the error payloads -/

@[simp] theorem mapTErr_fsm (s : State) (f : TErr → TErr) : (s.mapTErr f).fsm = s.fsm := rfl
@[simp] theorem mapTErr_curOp (s : State) (f : TErr → TErr) : (s.mapTErr f).curOp = s.curOp := rfl
@[simp] theorem mapTErr_curAddr (s : State) (f : TErr → TErr) : (s.mapTErr f).curAddr = s.curAddr := rfl
@[simp] theorem mapTErr_curData (s : State) (f : TErr → TErr) : (s.mapTErr f).curData = s.curData := rfl
@[simp] theorem mapTErr_seqN (s : State) (f : TErr → TErr) : (s.mapTErr f).seqN = s.seqN := rfl
@[simp] theorem mapTErr_seqI (s : State) (f : TErr → TErr) : (s.mapTErr f).seqI = s.seqI := rfl
@[simp] theorem mapTErr_seqTrail (s : State) (f : TErr → TErr) : (s.mapTErr f).seqTrail = s.seqTrail := rfl
@[simp] theorem mapTErr_txAbyte (s : State) (f : TErr → TErr) : (s.mapTErr f).txAbyte = s.txAbyte := rfl
@[simp] theorem mapTErr_txData (s : State) (f : TErr → TErr) : (s.mapTErr f).txData = s.txData := rfl
@[simp] theorem mapTErr_txnCount (s : State) (f : TErr → TErr) : (s.mapTErr f).txnCount = s.txnCount := rfl
@[simp] theorem mapTErr_resStatus (s : State) (f : TErr → TErr) : (s.mapTErr f).resStatus = s.resStatus := rfl
@[simp] theorem mapTErr_resTag (s : State) (f : TErr → TErr) : (s.mapTErr f).resTag = s.resTag := rfl
@[simp] theorem mapTErr_resWord (s : State) (f : TErr → TErr) : (s.mapTErr f).resWord = s.resWord := rfl
@[simp] theorem mapTErr_resValid (s : State) (f : TErr → TErr) : (s.mapTErr f).resValid = s.resValid := rfl
@[simp] theorem mapTErr_resAux (s : State) (f : TErr → TErr) : (s.mapTErr f).resAux = s.resAux := rfl
@[simp] theorem mapTErr_err (s : State) (f : TErr → TErr) : (s.mapTErr f).err = s.err := rfl
@[simp] theorem mapTErr_map (s : State) (f : TErr → TErr) : (s.mapTErr f).map = s.map := rfl
@[simp] theorem mapTErr_act (s : State) (f : TErr → TErr) : (s.mapTErr f).act = s.act := rfl
@[simp] theorem mapTErr_cfg (s : State) (f : TErr → TErr) : (s.mapTErr f).cfg = s.cfg := rfl
@[simp] theorem mapTErr_terr (s : State) (f : TErr → TErr) : (s.mapTErr f).terr = s.terr.map f := rfl
@[simp] theorem mapTErr_env (s : State) (f : TErr → TErr) :
    (s.mapTErr f).env = { s.env with replies := s.env.replies.map (Reply.mapTErr f) } := rfl
@[simp] theorem mapTErr_internalFault (s : State) (f : TErr → TErr) : (s.mapTErr f).internalFault = s.internalFault := rfl
@[simp] theorem mapTErr_frame (s : State) (f : TErr → TErr) : (s.mapTErr f).frame = s.frame := rfl
@[simp] theorem mapTErr_resHolds (s : State) (f : TErr → TErr) (a : Byte) : (s.mapTErr f).resHolds a = s.resHolds a := rfl
@[simp] theorem mapTErr_actionsValid (s : State) (f : TErr → TErr) (n : Nat) :
    (s.mapTErr f).actionsValid n = s.actionsValid n := rfl
@[simp] theorem mapTErrOf_next (f : TErr → TErr) (t : State) : mapTErrOf f (.next t) = .next (t.mapTErr f) := rfl
@[simp] theorem mapTErrOf_fault (f : TErr → TErr) (e : Fault) : mapTErrOf f (.fault e) = .fault e := rfl

/-! ### What a step can do -/

/-- What a step can do where `Reset` is not asserted; `u` is the state it works on. -/
inductive StepEffect (s u : State) : State → Prop
  | noCommand (hf : s.fsm = .idle) : StepEffect s u u
  | illegal (w d : Word) (rest : List (Word × Word)) (hf : s.fsm = .idle) (hc : s.env.hostCmds = (w, d) :: rest) :
      StepEffect s u ((u.withCmds rest).raise .illegalCommand)
  | command (i : Instr) (w d : Word) (rest : List (Word × Word)) (t : State) (hf : s.fsm = .idle)
      (hc : s.env.hostCmds = (w, d) :: rest) (hd : decode (.cmd w d) = .ok i)
      (he : CommandEffect i (u.withCmds rest) t) : StepEffect s u t
  | issue (f : WireFrame) (hf : s.fsm = .issue) (hw : s.frame = some f) : StepEffect s u (u.issue f)
  | noReply (hf : s.fsm = .wait) (hr : s.env.replies = []) : StepEffect s u u
  | replyErr (e : TErr) (rest : List Reply) (hf : s.fsm = .wait) (hr : s.env.replies = .err e :: rest) :
      StepEffect s u ((u.withReplies rest).raiseTransport e)
  | replyOk (st b0 b1 b2 b3 : Byte) (rest : List Reply) (t : State) (hf : s.fsm = .wait)
      (hr : s.env.replies = .ok st b0 b1 b2 b3 :: rest)
      (he : ReplyEffect st (unbe32 b0 b1 b2 b3) (u.withReplies rest) t) : StepEffect s u t

/-- A step that answers next without `Reset` has one of the effects above, from a state with no internal fault. -/
theorem step_effect {s t : State} (hr : s.noReset) (h : step s = .next t) :
    s.internalFault = none ∧ StepEffect s s.ticked t := by
  rw [step_of_noReset hr] at h
  have hf0 : s.internalFault = none := by
    rw [State.engineStep, ticked_internalFault] at h
    split at h
    · cases h
    · assumption
  refine ⟨hf0, ?_⟩
  have hfm : s.ticked.fsm = s.fsm := rfl
  cases hf : s.fsm with
  | idle =>
    rw [engineStep_idle (s := s.ticked) hf0 hf] at h
    unfold State.hostCmdStep at h
    split at h
    · cases h; exact .noCommand hf
    · rename_i w d rest hc
      unfold runDecoded at h
      split at h
      · rename_i i hi
        exact .command i w d rest t hf hc hi (exec_effect ⟨hf0, hf⟩ h)
      · cases h; exact .illegal w d rest hf hc
  | issue =>
    rw [engineStep_issue (s := s.ticked) hf0 hf] at h
    unfold State.issueStep at h
    split at h
    · cases h
    · rename_i f hw
      rw [runDecoded_frame s.ticked f hf0 hf hw] at h
      cases h; exact .issue f hf hw
  | wait =>
    rw [engineStep_wait (s := s.ticked) hf0 hf] at h
    unfold State.replyStep at h
    split at h
    · cases h; exact .noReply hf ‹_›
    · rename_i r rest hr
      cases r with
      | ok st b0 b1 b2 b3 => exact .replyOk st b0 b1 b2 b3 rest t hf hr (replyOk_effect h)
      | err e => cases h; exact .replyErr e rest hf hr
  | reserved3 => have := (internalFault_eq_none.1 hf0).1; contradiction
end Sys2Proof.Machine
end

