-- ==== Sys2Proof/Tests/Slice0.lean ====
section
/-! SUPPORT. The model's own tests. Every expected value is the spec's: 95_test_vectors.md (the vector is named), or the rule
named. Then, for every statement with hypotheses, a witness: a concrete state and operands that meet them, for each of its
clauses, at a boundary of its range. -/

namespace Sys2Proof.Tests

open Sys2Proof.Machine

/-- The outcome is a next state for which `p` holds. -/
def after (r : Result) (p : State → Bool) : Bool :=
  match r with
  | .next s => p s
  | .fault _ => false
  | .refused _ => false

/-- The outcome is the fault `f`. -/
def faultsWith (r : Result) (f : Fault) : Bool :=
  match r with
  | .next _ => false
  | .fault g => decide (g = f)
  | .refused _ => false

/-- The outcome is the refusal `f`. -/
def refusesWith (r : Result) (f : Refusal) : Bool :=
  match r with
  | .next _ => false
  | .fault _ => false
  | .refused g => decide (g = f)

/-- A word decodes to `i`. -/
def decodesTo (c : Encoded) (i : Instr) : Bool :=
  match decode c with
  | .ok j => decide (j = i)
  | .error _ => false

/-- A word is rejected for the reason `r`. -/
def rejectedAs (c : Encoded) (r : Reject) : Bool :=
  match decode c with
  | .ok _ => false
  | .error q => decide (q = r)

/-! ### WellFormed: each check refuses an ill-formed term -/

theorem test_wf_readFrame_refuses_bit7 : (Instr.readFrame 0x80#8).wf = false := by decide
theorem test_wf_writeFrame_refuses_bit7 : (Instr.writeFrame 0xEC#8 0#32).wf = false := by decide
theorem test_wf_command_takes_any_operand : (Instr.readReg 0x84#8).wf = true := by decide

/-- A field at bit `off`, of any name. -/
def bits (off width : Nat) : FieldDesc := { name := "f", off := off, width := width }

/-- An error payload. -/
def token : TErr := { token := 0, legal := .inl rfl }

/-- An entry with the given address and fields. -/
def entry (a : BitVec 7) (fs : List FieldDesc) : CatalogEntry := { addr := a, mode := .rw, fields := fs, default := 0#32 }

/-- 00 R7 (1). -/
theorem test_catalog_refuses_equal_addresses : Catalog.addrsDistinct [entry 4#7 [], entry 4#7 []] = false := by decide
/-- 00 R7 (3): width 0, and a field past bit 31. -/
theorem test_catalog_refuses_bad_field :
    Catalog.fieldsInWord [entry 4#7 [(bits 0 0)]] = false ∧ Catalog.fieldsInWord [entry 4#7 [(bits 31 2)]] = false := by decide
/-- 00 R7 (4). -/
theorem test_catalog_refuses_overlap : Catalog.noOverlap [entry 4#7 [(bits 0 4), (bits 3 1)]] = false := by decide
/-- 00 R7 (5). -/
theorem test_catalog_refuses_empty : Catalog.sizeOk [] = false := by decide
/-- 00 R7 (6). -/
theorem test_catalog_refuses_33_fields :
    Catalog.fieldCountOk [entry 4#7 (List.replicate 33 (bits 0 1))] = false := by decide
/-- 00 R7 (7). -/
theorem test_catalog_refuses_descending : Catalog.ascending [entry 5#7 [], entry 4#7 []] = false := by decide
/-- 00 R9. -/
theorem test_config_bounds_max_actions :
    configCheck [entry 4#7 []] 0 = false ∧ configCheck [entry 4#7 []] 256 = false ∧ configCheck [entry 4#7 []] 255 = true := by
  decide

/-! ### Decoding (95 section 2.1) -/

theorem test_decode_readReg_VE1 : decodesTo (.cmd 0x00002101#32 0#32) (.readReg 0x21#8) = true := by decide
theorem test_decode_writeReg_VE2 :
    decodesTo (.cmd 0x00002102#32 0xFFFFFF9C#32) (.writeReg 0x21#8 0xFFFFFF9C#32) = true := by decide
theorem test_decode_bulk_VE3 : decodesTo (.cmd 0x00030003#32 0#32) (.bulk 3#8) = true := by decide
theorem test_decode_actionWrite_VE4_VE5 :
    decodesTo (.cmd 0x00022104#32 0#32) (.actionWrite 2#8 .read 0x21#8 0#32) = true ∧
    decodesTo (.cmd 0x01002104#32 0x100#32) (.actionWrite 0#8 .write 0x21#8 0x100#32) = true := by decide
theorem test_decode_actionRead_VE6 : decodesTo (.cmd 0x00020005#32 0#32) (.actionRead 2#8) = true := by decide
theorem test_decode_mapSetState_VE7 :
    decodesTo (.cmd 0x00002106#32 0x100#32) (.mapSetState 0x21#8 0x100#32) = true := by decide
theorem test_decode_mapStoreRes_VE8 : decodesTo (.cmd 0x01000006#32 0#32) .mapStoreRes = true := by decide
theorem test_decode_mapGet_VE9_VE20 :
    decodesTo (.cmd 0x00006C07#32 0#32) (.mapGet 0x6C#8) = true ∧
    decodesTo (.cmd 0x01006C07#32 0#32) (.mapGet 0x6C#8) = true := by decide
theorem test_decode_mapDefault_VE10 : decodesTo (.cmd 0x00000008#32 0#32) .mapDefault = true := by decide
theorem test_decode_stateCheck_VE11 : decodesTo (.cmd 0x00000409#32 0#32) (.stateCheck 0x04#8) = true := by decide
theorem test_decode_stateSet_VE12 :
    decodesTo (.cmd 0x01000409#32 0x12345678#32) (.stateSet 0x04#8 0x12345678#32) = true := by decide
theorem test_decode_fieldGet_VE13 : decodesTo (.cmd 0x00016C0A#32 0#32) (.fieldGet 0x6C#8 1#8) = true := by decide
theorem test_decode_fieldGetRes_VE14 : decodesTo (.cmd 0x01036C0A#32 0#32) (.fieldGetRes 0x6C#8 3#8) = true := by decide
theorem test_decode_fieldSet_VE15 :
    decodesTo (.cmd 0x00026C0B#32 0xFF#32) (.fieldSet 0x6C#8 2#8 0xFF#32) = true := by decide
theorem test_decode_fieldSetRes_VE16 :
    decodesTo (.cmd 0x01036C0B#32 0x15#32) (.fieldSetRes 0x6C#8 3#8 0x15#32) = true := by decide
theorem test_decode_addrInfo_VE17 : decodesTo (.cmd 0x0000100C#32 0#32) (.addrInfo 0x10#8) = true := by decide
theorem test_decode_addrEnum_VE18 : decodesTo (.cmd 0x0004000D#32 0#32) (.addrEnum 4#8) = true := by decide
theorem test_decode_readFrame_VW1 :
    decodesTo (.frame ⟨0x6C#8, 0#8, 0#8, 0#8, 0#8⟩) (.readFrame 0x6C#8) = true := by decide
theorem test_decode_writeFrame_VW2 :
    decodesTo (.frame ⟨0xEC#8, 0x14#8, 0x41#8, 0x01#8, 0x55#8⟩) (.writeFrame 0x6C#8 0x14410155#32) = true := by decide
theorem test_decode_ignores_unused_VE19 :
    decodesTo (.cmd 0x01FF2101#32 0x12345678#32) (.readReg 0x21#8) = true := by decide
theorem test_decode_reserved_opcodes_VE21_VE22_VE23 :
    rejectedAs (.cmd 0x00000000#32 0#32) .reservedOpcode = true ∧
    rejectedAs (.cmd 0x0000000E#32 0#32) .reservedOpcode = true ∧
    rejectedAs (.cmd 0x0000000F#32 0#32) .reservedOpcode = true := by decide
theorem test_decode_reserved_bits_VE24_to_VE27 :
    rejectedAs (.cmd 0x00000010#32 0#32) .rsv0NotZero = true ∧ rejectedAs (.cmd 0x00002111#32 0#32) .rsv0NotZero = true ∧
    rejectedAs (.cmd 0x02000001#32 0#32) .rsv1NotZero = true ∧
    rejectedAs (.cmd 0x80002101#32 0#32) .rsv1NotZero = true := by decide
/-- VW3 to VW5. -/
theorem test_encode_frames_VW3_VW4_VW5 :
    encode (.writeFrame 0x00#8 0x1#32) = .frame ⟨0x80#8, 0#8, 0#8, 0#8, 0x01#8⟩ ∧
    encode (.writeFrame 0x10#8 0x00061F10#32) = .frame ⟨0x90#8, 0x00#8, 0x06#8, 0x1F#8, 0x10#8⟩ ∧
    encode (.writeFrame 0x21#8 0xFFFFFF9C#32) = .frame ⟨0xA1#8, 0xFF#8, 0xFF#8, 0xFF#8, 0x9C#8⟩ := by decide
theorem test_receive_VW6 : unbe32 0x12#8 0x34#8 0x56#8 0x78#8 = 0x12345678#32 := by decide
/-- The opcode table's numbering (log 12): the frame's first byte is the low one. -/
theorem test_decodeTableWord :
    decodeTableWord 32 0x00002101 = some (.readReg 0x21#8) ∧ decodeTableWord 32 0x0000000E = none ∧
    decodeTableWord 64 0xFFFFFF9C00002102 = some (.writeReg 0x21#8 0xFFFFFF9C#32) ∧
    decodeTableWord 40 0x55014114EC = some (.writeFrame 0x6C#8 0x14410155#32) := by decide

/-! ### The codec functions (95 section 2.2) -/

theorem test_fieldGet_VC1_VC5_VC8_VC17 :
    fieldGet (bits 4 3) 0x000000F0#32 = 0x7#32 ∧ fieldGet (bits 0 32) 0x12345678#32 = 0x12345678#32 ∧
    fieldGet (bits 31 1) 0x90410150#32 = 1#32 ∧ fieldGet (bits 0 1) 0xFFFFFFFE#32 = 0#32 := by decide
theorem test_fieldSet_VC2_VC3_VC6_VC7_VC9 :
    fieldSet (bits 4 3) 0xFFFFFFFF#32 0#32 = 0xFFFFFF8F#32 ∧ fieldSet (bits 4 3) 0#32 0xF#32 = 0x70#32 ∧
    fieldSet (bits 0 32) 0xABCDEF01#32 0xFFFFFF9C#32 = 0xFFFFFF9C#32 ∧
    fieldSet (bits 31 1) 0x10410150#32 1#32 = 0x90410150#32 ∧ fieldSet (bits 7 4) 0x10410150#32 0xFF#32 = 0x104107D0#32 := by decide
theorem test_encode_fields_VC11_VC13_VC15 :
    encodeFields (Config.fixture.layout 2) [0x10#32, 0x1F#32, 0x6#32] = 0x00061F10#32 ∧
    encodeFields (Config.fixture.layout 2) [0x3F#32, 0#32, 0#32] = 0x1F#32 ∧
    encodeFields (Config.fixture.layout 4) (decodeFields (Config.fixture.layout 4) 0x10410150#32) = 0x150#32 := by decide
theorem test_decode_fields_VC12_VC14_VC16 :
    decodeFields (Config.fixture.layout 2) 0x00061F10#32 = [0x10#32, 0x1F#32, 0x6#32] ∧
    decodeFields (Config.fixture.layout 4) 0x10410150#32 = [0#32, 5#32, 2#32, 0#32, 0#32] ∧
    decodeFields (Config.fixture.layout 1) 0x11000000#32 = [0#32, 0x11#32] := by decide
/-- "The union of T_CHOP's field masks is `U = 0x8F0007FF`" (95 section 0.1). -/
theorem test_field_union : fieldUnion (Config.fixture.layout 4) = 0x8F0007FF#32 := by decide

/-! ### Commands of the codec, the catalog and the map (95 section 2.3) -/

/-- The reset state with a transient state `(tag, word)`. -/
def holding (tag : Byte) (w : Word) : State := { State.reset with resTag := tag, resWord := w, resValid := true }

theorem test_addrEnum_VK1_last :
    after (exec (.addrEnum 4#8) State.reset) (fun t => t.resAux = 0x0504036C#32 && t.err = .none) = true := by decide
theorem test_addrEnum_VK2 :
    after (exec (.addrEnum 5#8) State.reset) (fun t => t.err = .badIndex && t.resAux = 0#32) = true := by decide
theorem test_addrInfo_VK3 : after (exec (.addrInfo 0x10#8) State.reset) (fun t => t.resAux = 0x03020210#32) = true := by
  decide
theorem test_addrInfo_VK4 :
    after (exec (.addrInfo 0x84#8) State.reset) (fun t => t.err = .unknownAddress && t.resAux = 0#32) = true := by decide
theorem test_mapSetState_VK5 :
    after (exec (.mapSetState 0x21#8 0x100#32) State.reset) (fun t => t.map[3]? = some ⟨0x21#7, 0x100#32⟩) = true := by decide
theorem test_mapSetState_unknown :
    after (exec (.mapSetState 0x22#8 1#32) State.reset) (fun t => t.err = .unknownAddress && t.map = State.reset.map) = true := by
  decide
theorem test_mapGet_E2 :
    after (exec (.mapGet 0x04#8) State.reset)
      (fun t => t.resTag = 0x04#8 && t.resWord = 0x11000000#32 && t.resValid && t.err = .none) = true := by decide
theorem test_mapDefault_VK6 :
    after (exec .mapDefault (State.reset.setMapWord 3 0x100#32)) (fun t => t.map = State.reset.map) = true := by decide
theorem test_stateCheck_VK7 :
    after (exec (.stateCheck 0x04#8) State.reset) (fun t => t.err = .unexpectedAddress) = true := by decide
theorem test_stateCheck_VK8 :
    after (exec (.stateCheck 0x04#8) (holding 0x04#8 0x11000000#32)) (fun t => t.err = .none) = true ∧
    after (exec (.stateCheck 0x00#8) (holding 0x04#8 0x11000000#32)) (fun t => t.err = .unexpectedAddress) = true ∧
    after (exec (.stateCheck 0x05#8) (holding 0x04#8 0x11000000#32)) (fun t => t.err = .unknownAddress) = true := by decide
theorem test_stateSet_VK9 :
    after (exec (.stateSet 0x04#8 0x12345678#32) (holding 0x04#8 0x11000000#32))
      (fun t => t.resWord = 0x12345678#32 && t.resTag = 0x04#8 && t.map = State.reset.map) = true := by decide
theorem test_stateSet_VK10 :
    after (exec (.stateSet 0x21#8 1#32) (holding 0x04#8 0x12345678#32))
      (fun t => t.err = .unexpectedAddress && t.resWord = 0x12345678#32) = true := by decide
theorem test_mapStoreRes_VK11 :
    after (exec .mapStoreRes (holding 0x04#8 0x12345678#32)) (fun t => t.map[1]? = some ⟨0x04#7, 0x12345678#32⟩) = true := by
  decide
theorem test_mapStoreRes_VK12 :
    after (exec .mapStoreRes State.reset) (fun t => t.err = .unexpectedAddress && t.map = State.reset.map) = true := by decide
theorem test_fieldGet_VK13 : after (exec (.fieldGet 0x6C#8 1#8) State.reset) (fun t => t.resAux = 5#32) = true := by decide
theorem test_fieldGet_VK14 :
    after (exec (.fieldGet 0x6C#8 5#8) State.reset) (fun t => t.err = .badField) = true ∧
    after (exec (.fieldGet 0x22#8 0#8) State.reset) (fun t => t.err = .unknownAddress) = true := by decide
theorem test_fieldSet_VK16 :
    after (exec (.fieldSet 0x6C#8 2#8 0xFF#32) State.reset) (fun t => t.map[4]? = some ⟨0x6C#7, 0x104107D0#32⟩) = true := by
  decide
theorem test_fieldSet_VK17 :
    after (exec (.fieldSet 0x6C#8 4#8 1#32) State.reset) (fun t => t.map[4]? = some ⟨0x6C#7, 0x90410150#32⟩) = true := by decide
theorem test_fieldGetRes_VK18 :
    after (exec (.fieldGetRes 0x6C#8 0#8) State.reset) (fun t => t.err = .unexpectedAddress) = true ∧
    after (exec (.fieldGetRes 0x6C#8 9#8) State.reset) (fun t => t.err = .badField) = true := by decide
theorem test_fieldGetRes_VK20 :
    after (exec (.fieldGetRes 0x6C#8 3#8) (holding 0x6C#8 0x15410150#32)) (fun t => t.resAux = 5#32) = true := by decide
theorem test_fieldSetRes_VK19 :
    after (exec (.fieldSetRes 0x6C#8 3#8 0x15#32) (holding 0x6C#8 0x10410150#32))
      (fun t => t.resWord = 0x15410150#32 && t.map = State.reset.map) = true := by decide
theorem test_fieldSetRes_VX7 :
    after (exec (.fieldSetRes 0x05#8 9#8 0#32) State.reset) (fun t => t.err = .unknownAddress) = true ∧
    after (exec (.fieldSetRes 0x04#8 9#8 0#32) State.reset) (fun t => t.err = .badField) = true := by decide

/-! ### The action buffer and the protocol commands (95 sections 2.3 to 2.5) -/

/-- The reset state with the first entries of the action buffer filled. -/
def withActions (l : List Action) : State :=
  { State.reset with act := l ++ List.replicate (8 - l.length) Action.empty }

/-- A READ entry. -/
def rd (a : Byte) (w : Word) : Action := { valid := true, kind := .read, tag := a, word := w }
/-- A WRITE entry. -/
def wr (a : Byte) (w : Word) : Action := { valid := true, kind := .write, tag := a, word := w }

theorem test_actionWrite_VK21 :
    after (exec (.actionWrite 1#8 .read 0x04#8 0xAAAAAAAA#32) State.reset)
      (fun t => t.act[1]? = some (rd 0x04#8 0xAAAAAAAA#32) && t.act[0]? = some Action.empty) = true := by decide
theorem test_actionWrite_VX2_VX3 :
    after (exec (.actionWrite 9#8 .read 0x05#8 0#32) State.reset) (fun t => t.err = .badIndex) = true ∧
    after (exec (.actionWrite 7#8 .read 0x05#8 0#32) State.reset) (fun t => t.err = .unknownAddress) = true := by decide
theorem test_actionRead_VK22 :
    after (exec (.actionRead 3#8) (withActions [rd 0#8 0#32, rd 0#8 0#32, rd 0#8 0#32, wr 0x10#8 7#32]))
      (fun t => t.resTag = 0x10#8 && t.resWord = 7#32 && t.resAux = 1#32 && t.resValid) = true := by decide
theorem test_actionRead_VX10 :
    after (exec (.actionRead 0#8) State.reset) (fun t => t.err = .badIndex) = true ∧
    after (exec (.actionRead 8#8) State.reset) (fun t => t.err = .badIndex) = true := by decide
theorem test_readReg_accepted_E3 :
    after (exec (.readReg 0x04#8) State.reset)
      (fun t => t.fsm = .issue && t.curAddr = 0x04#8 && t.frame = some ⟨0x04#8, 0#8, 0#8, 0#8, 0#8⟩) = true := by decide
theorem test_readReg_VX4_VX5 :
    after (exec (.readReg 0x84#8) State.reset) (fun t => t.err = .unknownAddress && t.fsm = .idle) = true ∧
    after (exec (.readReg 0x10#8) State.reset) (fun t => t.err = .accessDenied && t.fsm = .idle) = true := by decide
theorem test_writeReg_accepted_E4 :
    after (exec (.writeReg 0x10#8 0x00061F10#32) State.reset)
      (fun t => t.fsm = .issue && t.frame = some ⟨0x90#8, 0x00#8, 0x06#8, 0x1F#8, 0x10#8⟩) = true := by decide
theorem test_writeReg_VX6 :
    after (exec (.writeReg 0x04#8 1#32) State.reset) (fun t => t.err = .accessDenied) = true ∧
    after (exec (.writeReg 0x84#8 1#32) State.reset) (fun t => t.err = .unknownAddress) = true := by decide
theorem test_bulk_zero_VP6 :
    after (exec (.bulk 0#8) { State.reset with resStatus := 0x07#8, txnCount := 1#9 })
      (fun t => t.err = .none && t.fsm = .idle && t.txnCount = 0#9 && t.resStatus = 0x07#8) = true := by decide
theorem test_bulk_VX8_VX9 :
    after (exec (.bulk 9#8) { State.reset with txnCount := 7#9 }) (fun t => t.err = .badIndex && t.txnCount = 7#9) = true ∧
    after (exec (.bulk 1#8) State.reset) (fun t => t.err = .badIndex) = true := by decide
/-- A block about to issue the first transaction of a READ_REG of 0x6C (42 R165). -/
def aboutToIssue : State := { State.reset with fsm := .issue, curOp := opReadReg, curAddr := 0x6C#8 }

theorem test_readFrame_VW1 :
    after (exec (.readFrame 0x6C#8) aboutToIssue)
      (fun t => t.env.wire = [⟨0x6C#8, 0#8, 0#8, 0#8, 0#8⟩] && t.fsm = .wait && t.txnCount = 1#9) = true := by decide
theorem test_readFrame_not_enabled :
    refusesWith (exec (.readFrame 0x6C#8) State.reset) .issueNotEnabled = true := by decide
theorem test_writeFrame_VW2 :
    after (exec (.writeFrame 0x6C#8 0x14410155#32) aboutToIssue)
      (fun t => t.env.wire = [⟨0xEC#8, 0x14#8, 0x41#8, 0x01#8, 0x55#8⟩] && t.txAbyte = 0xEC#8 && t.txData = 0x14410155#32) =
        true := by decide

/-! ### Steps -/

/-- VX1: READ_REG 0x05 with a reserved bit set. -/
theorem test_step_illegal_VX1 :
    after (step (State.reset.withCmds [(0x00000511#32, 0#32)])) (fun t => t.err = .illegalCommand && t.env.hostCmds = []) =
      true := by decide
/-- The very next step runs a word placed by `withFetchWord` (log 13): VE10 and VW2. -/
theorem test_step_withFetchWord :
    after (step (State.reset.withFetchWord 32 0x00000008)) (fun t => t.err = .none && t.fsm = .idle) = true ∧
    after (step (State.reset.withFetchWord 40 0x55014114EC))
      (fun t => t.env.wire = [⟨0xEC#8, 0x14#8, 0x41#8, 0x01#8, 0x55#8⟩] && t.fsm = .wait) = true := by decide
/-- From reset with nothing presented the block waits (70 R230). -/
theorem test_step_reset_waits : after (step State.reset) (fun t => t = State.reset) = true := by decide

/-- A READ_REG of 0x04 waiting for its answer `i`, the answers `l` coming (E3). -/
def readWaiting (i n : BitVec 9) (l : List Reply) : State :=
  { State.reset with fsm := .wait, curOp := opReadReg, curAddr := 0x04#8, seqI := i, txnCount := n,
                     env := { Env.quiet with replies := l } }

theorem test_reply_read_E3 :
    after (step (readWaiting 0#9 1#9 [okReply 0xA0#8 0x55555555#32])) (fun t => t.fsm = .issue && t.resValid = false) = true ∧
    after (step (readWaiting 1#9 2#9 [okReply 0xA1#8 0x11000000#32]))
      (fun t => t.fsm = .idle && t.resWord = 0x11000000#32 && t.resTag = 0x04#8 && t.resStatus = 0xA1#8 && t.resValid) =
        true := by decide
theorem test_reply_error_VP2 :
    after (step (readWaiting 0#9 1#9 [.err token]))
      (fun t => t.err = .transportError && t.terr = some token && t.fsm = .idle && t.seqI = 0#9 && t.resValid = false) = true := by
  decide

/-- E5: the BULK of `[W 0x00 1, R 0x04, R 0x21]` in progress. -/
def bulkAt (f : Fsm) (i : BitVec 9) (trail : Bool) (n : BitVec 9) (l : List Reply) : State :=
  { withActions [wr 0x00#8 1#32, rd 0x04#8 0#32, rd 0x21#8 0#32] with
      fsm := f, curOp := opBulk, seqN := 3#8, seqI := i, seqTrail := trail, txnCount := n,
      env := { Env.quiet with replies := l } }

theorem test_bulk_txn2_resolves_action1_E5 :
    after (step (bulkAt .wait 2#9 false 3#9 [okReply 0x12#8 0xBBB#32]))
      (fun t => t.act[1]? = some (rd 0x04#8 0xBBB#32) && t.seqTrail && t.seqI = 3#9 &&
        t.frame = some ⟨0x21#8, 0#8, 0#8, 0#8, 0#8⟩) = true := by decide
theorem test_bulk_trailing_E5 :
    after (step (bulkAt .wait 3#9 true 4#9 [okReply 0x13#8 0xCCC#32]))
      (fun t => t.act[2]? = some (rd 0x21#8 0xCCC#32) && t.fsm = .idle && t.resStatus = 0x13#8 && t.err = .none) = true := by
  decide
theorem test_reset_VR1 :
    after (step ((bulkAt .wait 2#9 false 3#9 []).withResetLine [true])) (fun t => t = State.reset) = true := by decide

/-- 60 R218: a block that reaches one of the three states records the fault. -/
theorem test_internal_faults :
    faultsWith (step { State.reset with fsm := .reserved3 }) .fsmReserved = true ∧
    faultsWith (step { State.reset with map := [] }) .mapTagMismatch = true ∧
    faultsWith (exec (.mapGet 0x04#8) (holding 0x05#8 0#32)) .unknownTag = true := by decide

/-- 30 R99: assembler lines of 95 section 2.1. -/
theorem test_asmLine : asmLine (.actionWrite 2#8 .read 0x21#8 0#32) = "ACTION_WRITE 0x2, R, 0x21, 0x0" ∧
    asmLine .mapDefault = "MAP_DEFAULT" := by decide

/-! ### Witnesses -/

theorem ready_reset : State.reset.Ready := ⟨by decide, by decide⟩

theorem ready_holding : (holding 0x6C#8 0x10410150#32).Ready := ⟨by decide, by decide⟩

/-- The action buffer of E5, no command in progress, answers `l` coming, the command `(w, d)` at the port. -/
def bulkReady (w d : Word) (l : List Reply) : State :=
  { withActions [wr 0x00#8 1#32, rd 0x04#8 0#32, rd 0x21#8 0#32] with
      env := { Env.quiet with hostCmds := [(w, d)], replies := l } }

theorem ready_bulk : (bulkReady 0#32 0#32 []).Ready := ⟨by decide, by decide⟩

/-- The reset state with a command at the port and answers coming. -/
def session (w d : Word) (l : List Reply) : State :=
  { State.reset with env := { Env.quiet with hostCmds := [(w, d)], replies := l } }

theorem witness_DecodeOfEncodeIsIdentity :
    (Instr.readFrame 0x7F#8).wf = true ∧ (Instr.writeFrame 0x7F#8 0#32).wf = true ∧ (Instr.bulk 255#8).wf = true := by decide

theorem witness_CommandDecodingIsTotal :
    (cmdRsv1 0x01FFFF0D = 0 ∧ cmdRsv0 0x01FFFF0D = 0 ∧ cmdOp 0x01FFFF0D ∉ [0x0#4, 0xE#4, 0xF#4]) ∧
    ¬ (cmdRsv1 0x02000001 = 0 ∧ cmdRsv0 0x02000001 = 0 ∧ cmdOp 0x02000001 ∉ [0x0#4, 0xE#4, 0xF#4]) ∧
    (WireFrame.mk 0x80#8 0#8 0#8 0#8 0#8).abyte.getLsbD 7 = true ∧
    (WireFrame.mk 0x7F#8 0#8 0#8 0#8 0#8).abyte.getLsbD 7 = false := by decide

/-- Two words that differ only in fields their command does not use. -/
def sameUsed (w w' : Word) (op : BitVec 4) : Bool :=
  decide (cmdRsv1 w = cmdRsv1 w') && decide (cmdRsv0 w = cmdRsv0 w') && decide (cmdOp w = op) && decide (cmdOp w' = op)

theorem witness_UnusedCommandFieldsAreIgnored :
    (sameUsed 0x01FF2101 0x00002101 0x1#4 && cmdAddr 0x01FF2101 = cmdAddr 0x00002101) = true ∧
    (sameUsed 0x01FF2102 0x00002102 0x2#4 && cmdAddr 0x01FF2102 = cmdAddr 0x00002102) = true ∧
    (sameUsed 0x01FFFF03 0x00FF0003 0x3#4 && cmdIdx 0x01FFFF03 = cmdIdx 0x00FF0003) = true ∧
    sameUsed 0x01FFFF08 0x00000008 0x8#4 = true ∧
    (sameUsed 0x01FFFF06 0x01000006 0x6#4 && cmdKind 0x01FFFF06 && cmdKind 0x01000006) = true ∧
    (sameUsed 0x00FF2106 0x00002106 0x6#4 && !cmdKind 0x00FF2106 && !cmdKind 0x00002106 &&
      cmdAddr 0x00FF2106 = cmdAddr 0x00002106) = true ∧
    (sameUsed 0x00FF0409 0x00000409 0x9#4 && !cmdKind 0x00FF0409 && !cmdKind 0x00000409 &&
      cmdAddr 0x00FF0409 = cmdAddr 0x00000409) = true ∧
    (sameUsed 0x01FF0409 0x01000409 0x9#4 && cmdKind 0x01FF0409 && cmdKind 0x01000409 &&
      cmdAddr 0x01FF0409 = cmdAddr 0x01000409) = true ∧
    (sameUsed 0x00016C0A 0x00016C0A 0xA#4 && cmdKind 0x00016C0A = cmdKind 0x00016C0A &&
      cmdIdx 0x00016C0A = cmdIdx 0x00016C0A && cmdAddr 0x00016C0A = cmdAddr 0x00016C0A) = true := by decide

/-- A word of every opcode and kind, unused bits set, for the decoding clause of each command's statement. -/
theorem witness_commandWords :
    isCommandWord 0x01FF2101 0x1#4 ∧ isCommandWord 0x01FF2102 0x2#4 ∧ isCommandWord 0x01FFFF03 0x3#4 ∧
    isCommandWord 0x01FFFF04 0x4#4 ∧ isCommandWord 0x01FFFF05 0x5#4 ∧
    (isCommandWord 0x00FFFF06 0x6#4 ∧ cmdKind 0x00FFFF06 = false) ∧
    (isCommandWord 0x01FFFF06 0x6#4 ∧ cmdKind 0x01FFFF06 = true) ∧ isCommandWord 0x01FFFF07 0x7#4 ∧
    isCommandWord 0x01FFFF08 0x8#4 ∧ (isCommandWord 0x00FFFF09 0x9#4 ∧ cmdKind 0x00FFFF09 = false) ∧
    (isCommandWord 0x01FFFF09 0x9#4 ∧ cmdKind 0x01FFFF09 = true) ∧
    (isCommandWord 0x00FFFF0A 0xA#4 ∧ cmdKind 0x00FFFF0A = false) ∧
    (isCommandWord 0x01FFFF0A 0xA#4 ∧ cmdKind 0x01FFFF0A = true) ∧
    (isCommandWord 0x00FFFF0B 0xB#4 ∧ cmdKind 0x00FFFF0B = false) ∧
    (isCommandWord 0x01FFFF0B 0xB#4 ∧ cmdKind 0x01FFFF0B = true) ∧ isCommandWord 0x01FFFF0C 0xC#4 ∧
    isCommandWord 0x01FFFF0D 0xD#4 := by
  unfold isCommandWord; decide

theorem witness_FieldReadAndWriteBitByBit :
    (bits 0 32).inWord = true ∧ (bits 31 1).inWord = true ∧ (bits 0 1).inWord = true := by decide

theorem witness_FieldReadAfterFieldWrite :
    (bits 4 3).inWord = true ∧ (bits 7 4).inWord = true ∧
    (bits 4 3).disjoint (bits 7 4) = true := by decide

theorem witness_CodecRoundTrip :
    [0x1F#32, 0x1F#32, 0xF#32].length = Config.fixture.nf 2 ∧
    ∀ p ∈ (Config.fixture.layout 2).zip [0x1F#32, 0x1F#32, 0xF#32], p.2 ≤ mask p.1.width := by decide

theorem witness_AddressDecoder :
    State.reset.Ready ∧ 0x80#8 ≤ (0x80#8 : Byte) ∧ State.reset.cfg.slot 0x80#8 = none ∧
    State.reset.cfg.slot 0x7F#8 = none ∧ State.reset.cfg.slot 0x6C#8 = some 4 ∧
    (7#8 : Byte).toNat < State.reset.cfg.maxActions := ⟨ready_reset, by decide⟩

theorem witness_FieldGetReadsTheMapSlot :
    State.reset.Ready ∧ State.reset.cfg.slot 0x22#8 = none ∧ State.reset.cfg.slot 0x6C#8 = some 4 ∧
    State.reset.cfg.nf 4 ≤ (5#8 : Byte).toNat ∧ (4#8 : Byte).toNat < State.reset.cfg.nf 4 := ⟨ready_reset, by decide⟩

theorem witness_FieldGetResReadsTheTransientState :
    (holding 0x6C#8 0x10410150#32).Ready ∧ (holding 0x6C#8 0x10410150#32).cfg.slot 0x22#8 = none ∧
    (holding 0x6C#8 0x10410150#32).cfg.slot 0x6C#8 = some 4 ∧ Config.fixture.nf 4 ≤ (5#8 : Byte).toNat ∧
    (4#8 : Byte).toNat < Config.fixture.nf 4 ∧
    ((holding 0x6C#8 0x10410150#32).resValid = true ∧ (holding 0x6C#8 0x10410150#32).resTag = 0x6C#8) ∧
    State.reset.resValid = false := ⟨ready_holding, by decide⟩

/-- FIELD_SET has the premises of FIELD_GET. -/
theorem witness_FieldSetWritesTheMapSlot :
    State.reset.Ready ∧ State.reset.cfg.slot 0x80#8 = none ∧ State.reset.cfg.slot 0x21#8 = some 3 ∧
    State.reset.cfg.nf 3 ≤ (1#8 : Byte).toNat ∧ (0#8 : Byte).toNat < State.reset.cfg.nf 3 := ⟨ready_reset, by decide⟩

/-- A tag that is not the one named; a tag that is. -/
theorem witness_FieldSetResWritesTheTransientState :
    (holding 0x6C#8 0x10410150#32).Ready ∧ Config.fixture.slot 0x05#8 = none ∧ Config.fixture.slot 0x21#8 = some 3 ∧
    Config.fixture.nf 3 ≤ (1#8 : Byte).toNat ∧ (0#8 : Byte).toNat < Config.fixture.nf 3 ∧
    (holding 0x6C#8 0x10410150#32).resTag ≠ 0x21#8 ∧ Config.fixture.slot 0x6C#8 = some 4 ∧
    (holding 0x6C#8 0x10410150#32).resValid = true ∧ (holding 0x6C#8 0x10410150#32).resTag = 0x6C#8 :=
  ⟨ready_holding, by decide⟩

/-- An unknown address, and an entry of each access mode. -/
theorem witness_AddrInfoReportsTheEntry :
    State.reset.Ready ∧ State.reset.cfg.slot 0x90#8 = none ∧
    (State.reset.cfg.slot 0x04#8 = some 1 ∧ (State.reset.cfg.catalog[1]?).map (·.mode) = some .ro) ∧
    (State.reset.cfg.slot 0x10#8 = some 2 ∧ (State.reset.cfg.catalog[2]?).map (·.mode) = some .wo) ∧
    (State.reset.cfg.slot 0x6C#8 = some 4 ∧ (State.reset.cfg.catalog[4]?).map (·.mode) = some .rw) := ⟨ready_reset, by decide⟩

theorem witness_AddrEnumListsTheCatalog :
    State.reset.Ready ∧ State.reset.cfg.nRegs ≤ (5#8 : Byte).toNat ∧
    (State.reset.cfg.catalog[(4#8 : Byte).toNat]?).isSome = true ∧ (Config.fixture.catalog[0]?).isSome = true ∧
    (Config.fixture.catalog[1]?).isSome = true := ⟨ready_reset, by decide⟩

theorem witness_StateCheckComparesTheTag :
    (holding 0x6C#8 0x10410150#32).Ready ∧ Config.fixture.slot 0x05#8 = none ∧
    ((Config.fixture.slot 0x21#8).isSome = true ∧ (holding 0x6C#8 0x10410150#32).resTag ≠ 0x21#8) ∧
    ((Config.fixture.slot 0x6C#8).isSome = true ∧ (holding 0x6C#8 0x10410150#32).resValid = true ∧
      (holding 0x6C#8 0x10410150#32).resTag = 0x6C#8) ∧ State.reset.resValid = false := ⟨ready_holding, by decide⟩

/-- STATE_SET has the premises of STATE_CHECK. -/
theorem witness_StateSetReplacesTheWord :
    (holding 0x6C#8 0x10410150#32).Ready ∧ Config.fixture.slot 0x80#8 = none ∧
    ((Config.fixture.slot 0x00#8).isSome = true ∧ (holding 0x6C#8 0x10410150#32).resTag ≠ 0x00#8) ∧
    ((Config.fixture.slot 0x6C#8).isSome = true ∧ (holding 0x6C#8 0x10410150#32).resValid = true ∧
      (holding 0x6C#8 0x10410150#32).resTag = 0x6C#8) := ⟨ready_holding, by decide⟩

theorem witness_MapSetStateWritesTheSlot :
    State.reset.Ready ∧ State.reset.cfg.slot 0x80#8 = none ∧ State.reset.cfg.slot 0x00#8 = some 0 := ⟨ready_reset, by decide⟩

theorem witness_MapStoreResUsesTheTag :
    State.reset.Ready ∧ State.reset.resValid = false ∧ (holding 0x6C#8 0x10410150#32).Ready ∧
    (holding 0x6C#8 0x10410150#32).resValid = true := ⟨ready_reset, by decide, ready_holding, by decide⟩

theorem witness_MapGetCopiesTheSlot :
    State.reset.Ready ∧ State.reset.cfg.slot 0x7F#8 = none ∧ State.reset.cfg.slot 0x6C#8 = some 4 := ⟨ready_reset, by decide⟩

theorem witness_MapDefaultRestoresTheDefaults :
    (State.reset.setMapWord 3 0x100#32).Ready ∧ ((State.reset.setMapWord 3 0x100#32).cfg.catalog[4]?).isSome = true :=
  ⟨⟨by decide, by decide⟩, by decide⟩

theorem witness_MapTotality : (Config.fixture.catalog[4]?).isSome = true ∧ State.reset.Ready ∧
    State.reset.cfg = Config.fixture := ⟨by decide, ready_reset, rfl⟩

theorem witness_ReadRegIsAccepted :
    State.reset.Ready ∧ State.reset.cfg.slot 0x84#8 = none ∧
    ((State.reset.cfg.slot 0x10#8).isSome = true ∧ State.reset.cfg.readable 0x10#8 = false) ∧
    State.reset.cfg.readable 0x04#8 = true := ⟨ready_reset, by decide⟩

theorem witness_WriteRegIsAccepted :
    State.reset.Ready ∧ State.reset.cfg.slot 0x84#8 = none ∧
    ((State.reset.cfg.slot 0x04#8).isSome = true ∧ State.reset.cfg.writable 0x04#8 = false) ∧
    State.reset.cfg.writable 0x10#8 = true := ⟨ready_reset, by decide⟩

theorem witness_ActionWriteFillsTheEntry :
    State.reset.Ready ∧ State.reset.cfg.maxActions ≤ (8#8 : Byte).toNat ∧
    ((7#8 : Byte).toNat < State.reset.cfg.maxActions ∧ State.reset.cfg.slot 0x05#8 = none) ∧
    (State.reset.cfg.slot 0x04#8).isSome = true := ⟨ready_reset, by decide⟩

theorem witness_ActionReadCopiesTheEntry :
    (bulkReady 0#32 0#32 []).Ready ∧ (bulkReady 0#32 0#32 []).cfg.maxActions ≤ (8#8 : Byte).toNat ∧
    (bulkReady 0#32 0#32 []).act[(3#8 : Byte).toNat]? = some Action.empty ∧ Action.empty.valid = false ∧
    (bulkReady 0#32 0#32 []).act[(2#8 : Byte).toNat]? = some (rd 0x21#8 0#32) ∧ (rd 0x21#8 0#32).valid = true :=
  ⟨ready_bulk, by decide⟩

theorem witness_BulkIsAccepted :
    (bulkReady 0#32 0#32 []).Ready ∧ (bulkReady 0#32 0#32 []).cfg.maxActions < (9#8 : Byte).toNat ∧
    (3 < (4#8 : Byte).toNat ∧ (bulkReady 0#32 0#32 []).act[3]? = some Action.empty ∧ Action.empty.valid = false) ∧
    (1 ≤ (3#8 : Byte).toNat ∧ (3#8 : Byte).toNat ≤ (bulkReady 0#32 0#32 []).cfg.maxActions ∧
      ∀ j < (3#8 : Byte).toNat, ((bulkReady 0#32 0#32 []).act[j]?).any (·.valid) = true) := ⟨ready_bulk, by decide⟩

theorem witness_WireFramesAreIssued :
    aboutToIssue.internalFault = none ∧ aboutToIssue.fsm = .issue ∧ (0x7F#8 : Byte) < 0x80#8 := by decide

/-- A frame while the block is idle, a command while it waits; a step that waits. -/
theorem witness_DisabledStepsWait :
    State.reset.internalFault = none ∧ State.reset.fsm ≠ .issue ∧ isFrame (.readFrame 0x6C#8) = true ∧
    aboutToIssue.internalFault = none ∧ aboutToIssue.fsm ≠ .idle ∧ isFrame .mapDefault = false ∧
    aboutToIssue.env.resetLine.head? ≠ some true ∧ after (step aboutToIssue) (fun _ => true) = true := by decide

theorem witness_StepRunsTheDecodedInstruction :
    ((session 0x00000401#32 0#32 []).internalFault = none ∧ (session 0x00000401#32 0#32 []).fsm = .idle ∧
      (session 0x00000401#32 0#32 []).env.resetLine.head? ≠ some true ∧
      (session 0x00000401#32 0#32 []).env.hostCmds = [(0x00000401#32, 0#32)] ∧
      decodesTo (.cmd 0x00000401#32 0#32) (.readReg 0x04#8) = true) ∧
    (aboutToIssue.internalFault = none ∧ aboutToIssue.fsm = .issue ∧
      aboutToIssue.frame = some ⟨0x6C#8, 0#8, 0#8, 0#8, 0#8⟩ ∧
      decodesTo (.frame ⟨0x6C#8, 0#8, 0#8, 0#8, 0#8⟩) (.readFrame 0x6C#8) = true) := by decide

theorem witness_IllegalCommandChangesOnlyErr :
    (session 0x02000001#32 0#32 []).Ready ∧ (session 0x02000001#32 0#32 []).env.resetLine = [] ∧
    (session 0x02000001#32 0#32 []).env.hostCmds = [(0x02000001#32, 0#32)] ∧ cmdRsv1 0x02000001 ≠ 0 ∧
    cmdRsv0 0x00000010 ≠ 0 ∧ cmdOp 0x0000000E ∈ [0x0#4, 0xE#4, 0xF#4] := ⟨⟨by decide, by decide⟩, by decide⟩

theorem witness_FrameOfTheState :
    (readWaiting 0#9 1#9 []).curOp = 0x1#4 ∧ ({ State.reset with curOp := 0x2#4 } : State).curOp = 0x2#4 ∧
    ((bulkAt .issue 3#9 true 3#9 []).curOp = 0x3#4 ∧ (bulkAt .issue 3#9 true 3#9 []).seqTrail = true ∧
      1 ≤ (bulkAt .issue 3#9 true 3#9 []).seqN.toNat ∧
      (bulkAt .issue 3#9 true 3#9 []).act[2]? = some (rd 0x21#8 0#32)) ∧
    ((bulkAt .issue 0#9 false 0#9 []).seqTrail = false ∧
      (bulkAt .issue 0#9 false 0#9 []).act[0]? = some (wr 0x00#8 1#32) ∧ (wr 0x00#8 1#32).kind = .write ∧
      (bulkAt .issue 2#9 false 2#9 []).act[2]? = some (rd 0x21#8 0#32) ∧ (rd 0x21#8 0#32).kind = .read) := by decide

theorem witness_IssueStepHandsTheFrameOver :
    (bulkAt .issue 0#9 false 0#9 []).internalFault = none ∧ (bulkAt .issue 0#9 false 0#9 []).env.resetLine = [] ∧
    (bulkAt .issue 0#9 false 0#9 []).fsm = .issue ∧
    (bulkAt .issue 0#9 false 0#9 []).frame = some ⟨0x80#8, 0#8, 0#8, 0#8, 0x01#8⟩ := by decide

/-- A WRITE_REG of 0x10 waiting for its answer (E4). -/
def writeWaiting (l : List Reply) : State :=
  { State.reset with fsm := .wait, curOp := opWriteReg, curAddr := 0x10#8, curData := 0x00061F10#32, txnCount := 1#9,
                     env := { Env.quiet with replies := l } }

theorem witness_SingleAccessReplies :
    ((readWaiting 0#9 1#9 [.ok 1#8 2#8 3#8 4#8 5#8]).internalFault = none ∧
      (readWaiting 0#9 1#9 [.ok 1#8 2#8 3#8 4#8 5#8]).fsm = .wait ∧
      (readWaiting 0#9 1#9 [.ok 1#8 2#8 3#8 4#8 5#8]).env.resetLine = [] ∧
      (readWaiting 0#9 1#9 [.ok 1#8 2#8 3#8 4#8 5#8]).curOp = 0x1#4) ∧
    (readWaiting 1#9 2#9 [.ok 1#8 2#8 3#8 4#8 5#8]).internalFault = none ∧
    ((writeWaiting [.ok 1#8 2#8 3#8 4#8 5#8]).internalFault = none ∧
      (writeWaiting [.ok 1#8 2#8 3#8 4#8 5#8]).curOp = 0x2#4) := by decide

/-- A BULK of E5 in progress satisfies the invariant. -/
theorem inv_bulkAt (f : Fsm) (i : BitVec 9) (trail : Bool) (n : BitVec 9) (l : List Reply) (hf : f ≠ .reserved3)
    (hi : i.toNat ≤ 3) (hn : n.toNat = i.toNat + if f = .wait then 1 else 0) (h0 : trail = false → i.toNat < 3)
    (h1 : trail = true → i.toNat = 3) : (bulkAt f i trail n l).Inv :=
  { noFault := by rw [internalFault_eq_none]; exact ⟨hf, rfl, rfl, rfl⟩
    curAddr := by show (0#8).toNat < 128; decide
    seqN := by show (3#8).toNat ≤ 8; decide
    seqI := by show i.toNat ≤ 255; omega
    txnCount := by show n.toNat ≤ 256; rw [hn]; split <;> omega
    terr := fun h => by cases h
    sequencer := fun _ => .inr (.inr ⟨rfl, by show 1 ≤ (3#8).toNat; decide, rfl, h0, fun h => ⟨h1 h, rfl⟩, hn⟩) }

theorem inv_bulkReady (w d : Word) (l : List Reply) : (bulkReady w d l).Inv :=
  { noFault := by rw [internalFault_eq_none]; exact ⟨(fun h => by cases h), rfl, rfl, rfl⟩
    curAddr := by show (0#8).toNat < 128; decide
    seqN := by show (0#8).toNat ≤ 8; decide
    seqI := by show (0#9).toNat ≤ 255; decide
    txnCount := by show (0#9).toNat ≤ 256; decide
    terr := fun h => by cases h
    sequencer := fun h => absurd rfl h }

/-- A BULK of one write, waiting for its answer (VP8). -/
def oneWrite : State :=
  { withActions [wr 0x21#8 0x64#32] with
      fsm := .wait, curOp := opBulk, seqN := 1#8, txnCount := 1#9,
      env := { Env.quiet with replies := [.ok 1#8 2#8 3#8 4#8 5#8] } }

theorem inv_oneWrite : oneWrite.Inv :=
  { noFault := by decide
    curAddr := by decide
    seqN := by decide
    seqI := by decide
    txnCount := by decide
    terr := fun h => by cases h
    sequencer := fun _ => .inr (.inr ⟨rfl, by decide, rfl, fun _ => by decide, (fun h => by cases h), rfl⟩) }

/-- A buffer whose only entry is a Read of 0x04, two answers coming. -/
def readFirst : State :=
  { withActions [rd 0x04#8 0#32] with env := { Env.quiet with replies := [okReply 1#8 2#32, okReply 3#8 4#32] } }

theorem inv_readFirst : readFirst.Inv :=
  { noFault := by decide
    curAddr := by decide
    seqN := by decide
    seqI := by decide
    txnCount := by decide
    terr := fun h => by cases h
    sequencer := fun h => absurd rfl h }

/-- Each continuation of a BULK: to the next action, to the trailing transaction, to the end (a BULK of one write), and the
trailing transaction's own answer. -/
theorem witness_BulkReplies :
    ((bulkAt .wait 1#9 false 2#9 [.ok 1#8 2#8 3#8 4#8 5#8]).Inv ∧
      (bulkAt .wait 1#9 false 2#9 [.ok 1#8 2#8 3#8 4#8 5#8]).env.resetLine = [] ∧ (1#9).toNat + 1 < (3#8).toNat) ∧
    ((bulkAt .wait 2#9 false 3#9 [.ok 1#8 2#8 3#8 4#8 5#8]).Inv ∧ (2#9).toNat + 1 = (3#8).toNat ∧
      (bulkAt .wait 2#9 false 3#9 []).isReadAt (2#9).toNat = true) ∧
    (bulkAt .wait 3#9 true 4#9 [.ok 1#8 2#8 3#8 4#8 5#8]).Inv ∧
    (oneWrite.Inv ∧ oneWrite.fsm = .wait ∧ oneWrite.curOp = 0x3#4 ∧ oneWrite.seqTrail = false ∧
      oneWrite.seqI.toNat + 1 = oneWrite.seqN.toNat ∧ oneWrite.isReadAt oneWrite.seqI.toNat = false) :=
  ⟨⟨inv_bulkAt _ _ _ _ _ (by decide) (by decide) (by decide) (by decide) (by decide), rfl, by decide⟩,
    ⟨inv_bulkAt _ _ _ _ _ (by decide) (by decide) (by decide) (by decide) (by decide), by decide⟩,
    inv_bulkAt _ _ _ _ _ (by decide) (by decide) (by decide) (by decide) (by decide), inv_oneWrite, by decide⟩

theorem witness_TransportErrorEndsTheCommand :
    (readWaiting 1#9 2#9 [.err token]).internalFault = none ∧ (readWaiting 1#9 2#9 [.err token]).env.resetLine = [] ∧
    (readWaiting 1#9 2#9 [.err token]).fsm = .wait ∧ (readWaiting 1#9 2#9 [.err token]).env.replies = [.err token] := by decide

theorem witness_WaitWithoutReplyHangs :
    (readWaiting 0#9 1#9 []).internalFault = none ∧ (readWaiting 0#9 1#9 []).env.resetLine = [] ∧
    (readWaiting 0#9 1#9 []).fsm = .wait ∧ (readWaiting 0#9 1#9 []).env.replies = [] := by decide

theorem witness_ResetSetsEveryRegister :
    ((bulkAt .wait 1#9 false 2#9 []).withResetLine [true]).env.resetLine = true :: [] ∧
    Env.quiet.resetLine = [] ∧ Env.quiet.hostCmds = [] := by decide

/-- A command accepted, one that completes, and one that ends in an error. -/
theorem witness_AnErrorChangesOnlyErr :
    State.reset.Ready ∧ after (exec (.readReg 0x04#8) State.reset) (fun t => t.fsm = .issue) = true ∧
    after (exec .mapDefault State.reset) (fun t => t.err = .none) = true ∧
    after (exec (.readReg 0x10#8) State.reset) (fun t => t.err = .accessDenied) = true := ⟨ready_reset, by decide⟩

/-- A step that writes the map: MAP_SET_STATE at the port. -/
theorem witness_MapTagsAndConfigNeverChange :
    (session 0x00002106#32 0x100#32 []).map.map (·.tag) = (session 0x00002106#32 0x100#32 []).cfg.catalog.map (·.addr) ∧
    after (step (session 0x00002106#32 0x100#32 [])) (fun t => t.map[3]? = some ⟨0x21#7, 0x100#32⟩) = true := by decide

theorem witness_OnlyMapCommandsWriteTheMap :
    (session 0x00002106#32 0x100#32 []).noReset ∧
    after (step (session 0x00002106#32 0x100#32 [])) (fun t => t.map ≠ State.reset.map) = true :=
  ⟨by simp [State.noReset, session, Env.quiet], by decide⟩

/-- A READ_REG's last answer writes the result registers. -/
theorem witness_WritersOfTheResultRegisters :
    (readWaiting 1#9 2#9 [okReply 1#8 5#32]).noReset ∧
    after (step (readWaiting 1#9 2#9 [okReply 1#8 5#32])) (fun t => t.resValid && t.resWord = 5#32) = true ∧
    (holding 0x6C#8 0#32).resValid = true := ⟨by simp [State.noReset, readWaiting, Env.quiet], by decide⟩

/-- The acceptances of READ_REG, WRITE_REG and BULK, an Issue step, the step to the trailing transaction and a transport
error. -/
theorem witness_WritersOfTheSequencerRegisters :
    ((session 0x00001002#32 0x00061F10#32 []).noReset ∧
      after (step (session 0x00001002#32 0x00061F10#32 [])) (fun t => t.curData = 0x00061F10#32) = true) ∧
    ((bulkReady 0x00030003#32 0#32 []).noReset ∧
      after (step (bulkReady 0x00030003#32 0#32 [])) (fun t => t.seqN = 3#8) = true) ∧
    ((bulkAt .wait 2#9 false 3#9 [okReply 1#8 5#32]).noReset ∧
      after (step (bulkAt .wait 2#9 false 3#9 [okReply 1#8 5#32])) (fun t => t.seqTrail) = true) ∧
    (session 0x00000401#32 0#32 []).noReset ∧
    after (step (session 0x00000401#32 0#32 [])) (fun t => t.curOp = 0x1#4 && t.curAddr = 0x04#8) = true ∧
    aboutToIssue.noReset ∧ after (step aboutToIssue) (fun t => t.txnCount = 1#9) = true ∧
    (readWaiting 1#9 2#9 [.err token]).noReset ∧ after (step (readWaiting 1#9 2#9 [.err token])) (fun t => t.terr = some token) = true :=
  ⟨⟨by simp [State.noReset, session, Env.quiet], by decide⟩, ⟨by simp [State.noReset, bulkReady, Env.quiet], by decide⟩,
    ⟨by simp [State.noReset, bulkAt, Env.quiet], by decide⟩,
    by simp [State.noReset, session, Env.quiet], by decide, by simp [State.noReset, aboutToIssue, State.reset,
    State.resetOf, Env.quiet], by decide, by simp [State.noReset, readWaiting, Env.quiet], by decide⟩

/-- An ACTION_WRITE, a resolution and the trailing transaction's answer. -/
theorem witness_WritersOfTheActionBuffer :
    (session 0x01002104#32 0x100#32 []).noReset ∧
    after (step (session 0x01002104#32 0x100#32 [])) (fun t => t.act[0]? = some (wr 0x21#8 0x100#32)) = true ∧
    (bulkAt .wait 2#9 false 3#9 [okReply 1#8 5#32]).noReset ∧
    after (step (bulkAt .wait 2#9 false 3#9 [okReply 1#8 5#32])) (fun t => t.act[1]? = some (rd 0x04#8 5#32)) = true ∧
    (bulkAt .wait 3#9 true 4#9 [okReply 1#8 5#32]).noReset ∧
    after (step (bulkAt .wait 3#9 true 4#9 [okReply 1#8 5#32])) (fun t => t.act[2]? = some (rd 0x21#8 5#32)) = true :=
  ⟨by simp [State.noReset, session, Env.quiet], by decide, by simp [State.noReset, bulkAt, Env.quiet], by decide,
    by simp [State.noReset, bulkAt, Env.quiet], by decide⟩

theorem witness_TransactionsGoOutOneAtATime :
    aboutToIssue.noReset ∧ aboutToIssue.fsm = .issue ∧
    after (step aboutToIssue) (fun t => t.env.wire = [⟨0x6C#8, 0#8, 0#8, 0#8, 0#8⟩]) = true ∧
    (readWaiting 0#9 1#9 []).noReset ∧ (readWaiting 0#9 1#9 []).fsm = .wait ∧
    after (step (readWaiting 0#9 1#9 [])) (fun t => t.fsm = .wait) = true :=
  ⟨by simp [State.noReset, aboutToIssue, State.reset, State.resetOf, Env.quiet], rfl, by decide,
    by simp [State.noReset, readWaiting, Env.quiet], rfl, by decide⟩

/-- An Issue step that sends action 1, one that sends the trailing transaction; a step without an answer; OK answers that
resolve action 1, the read that comes last, and the write that comes last; a transport error in transaction 1. -/
theorem witness_ActionPhasesAdvanceInOrder :
    ((bulkAt .issue 1#9 false 1#9 []).Inv ∧ (bulkAt .issue 1#9 false 1#9 []).noReset ∧
      (bulkAt .issue 1#9 false 1#9 []).curOp = opBulk ∧ 1 < (bulkAt .issue 1#9 false 1#9 []).seqN.toNat ∧
      (bulkAt .issue 1#9 false 1#9 []).phase 1 = some .pending ∧
      after (step (bulkAt .issue 1#9 false 1#9 [])) (fun t => t.phase 1 = some .sent) = true) ∧
    ((bulkAt .issue 3#9 true 3#9 []).Inv ∧
      after (step (bulkAt .issue 3#9 true 3#9 [])) (fun t => t.phase 2 = some .sent) = true) ∧
    ((bulkAt .wait 2#9 false 3#9 []).Inv ∧
      after (step (bulkAt .wait 2#9 false 3#9 [])) (fun t => t.phase 1 = some .sent) = true) ∧
    ((bulkAt .wait 2#9 false 3#9 [okReply 1#8 5#32]).Inv ∧
      (bulkAt .wait 2#9 false 3#9 [okReply 1#8 5#32]).resolves 1 = true ∧
      after (step (bulkAt .wait 2#9 false 3#9 [okReply 1#8 5#32])) (fun t => t.phase 1 = some .resolved) = true) ∧
    ((bulkAt .wait 3#9 true 4#9 [okReply 1#8 5#32]).Inv ∧
      (bulkAt .wait 3#9 true 4#9 [okReply 1#8 5#32]).resolves 2 = true ∧
      after (step (bulkAt .wait 3#9 true 4#9 [okReply 1#8 5#32])) (fun t => t.phase 2 = none && t.fsm = .idle) = true) ∧
    (oneWrite.Inv ∧ oneWrite.resolves 0 = true ∧ after (step oneWrite) (fun t => t.fsm = .idle) = true) ∧
    ((bulkAt .wait 1#9 false 2#9 [.err token]).Inv ∧
      after (step (bulkAt .wait 1#9 false 2#9 [.err token])) (fun t => t.phase 1 = none && t.fsm = .idle) = true) :=
  ⟨⟨inv_bulkAt _ _ _ _ _ (by decide) (by decide) (by decide) (by decide) (by decide),
      by simp [State.noReset, bulkAt, Env.quiet], by decide⟩,
    ⟨inv_bulkAt _ _ _ _ _ (by decide) (by decide) (by decide) (by decide) (by decide), by decide⟩,
    ⟨inv_bulkAt _ _ _ _ _ (by decide) (by decide) (by decide) (by decide) (by decide), by decide⟩,
    ⟨inv_bulkAt _ _ _ _ _ (by decide) (by decide) (by decide) (by decide) (by decide), by decide⟩,
    ⟨inv_bulkAt _ _ _ _ _ (by decide) (by decide) (by decide) (by decide) (by decide), by decide⟩,
    ⟨inv_oneWrite, by decide⟩,
    inv_bulkAt _ _ _ _ _ (by decide) (by decide) (by decide) (by decide) (by decide), by decide⟩

/-- A BULK in progress: a step from a state of the invariant in which the sequencer's clause says something. -/
theorem witness_EveryStepKeepsTheInvariant :
    (bulkAt .wait 2#9 false 3#9 [okReply 1#8 5#32]).Inv ∧
    after (step (bulkAt .wait 2#9 false 3#9 [okReply 1#8 5#32])) (fun t => t.seqTrail && t.fsm = .issue) = true :=
  ⟨inv_bulkAt _ _ _ _ _ (by decide) (by decide) (by decide) (by decide) (by decide), by decide⟩

theorem witness_InternalFaultsAreUnreachable : (bulkAt .wait 3#9 true 4#9 [okReply 1#8 5#32]).Inv :=
  inv_bulkAt _ _ _ _ _ (by decide) (by decide) (by decide) (by decide) (by decide)

/-- A READ_REG that a transport error has ended, the transient state holding a value. -/
def failedRead : State := { holding 0x6C#8 0x10410150#32 with err := .transportError, terr := some token }

theorem inv_failedRead : failedRead.Inv :=
  { noFault := by decide
    curAddr := by decide
    seqN := by decide
    seqI := by decide
    txnCount := by decide
    terr := fun _ => rfl
    sequencer := fun h => absurd rfl h }

/-- BULK in WAIT and in ISSUE, the trailing transaction among them; a valid entry; the response port after an error. -/
theorem witness_InvariantInTheSpecsWords :
    (failedRead.Inv ∧ failedRead.response.validState = true ∧ failedRead.response.err = 3#4) ∧
    (bulkAt .wait 3#9 true 4#9 []).Inv ∧ (bulkAt .issue 2#9 false 2#9 []).Inv ∧
    ((bulkAt .wait 3#9 true 4#9 []).cfg.catalog[4]?).isSome = true ∧
    (bulkAt .wait 3#9 true 4#9 []).act[2]? = some (rd 0x21#8 0#32) ∧ (rd 0x21#8 0#32).valid = true ∧
    (bulkAt .wait 3#9 true 4#9 []).fsm ≠ .idle ∧ (bulkAt .wait 3#9 true 4#9 []).curOp = opBulk :=
  ⟨⟨inv_failedRead, by decide⟩, inv_bulkAt _ _ _ _ _ (by decide) (by decide) (by decide) (by decide) (by decide),
    inv_bulkAt _ _ _ _ _ (by decide) (by decide) (by decide) (by decide) (by decide), by decide⟩

theorem witness_ReadRegTakesTwoTransactions :
    (session 0x00000401#32 0#32 [okReply 0xA0#8 0x55555555#32, okReply 0xA1#8 0x11000000#32]).Ready ∧
    decodesTo (.cmd 0x00000401#32 0#32) (.readReg 0x04#8) = true ∧ Config.fixture.readable 0x04#8 = true :=
  ⟨⟨by decide, by decide⟩, by decide⟩

theorem witness_WriteRegTakesOneTransaction :
    (session 0x00001002#32 0x00061F10#32 [okReply 0x07#8 0#32]).Ready ∧
    decodesTo (.cmd 0x00001002#32 0x00061F10#32) (.writeReg 0x10#8 0x00061F10#32) = true ∧
    Config.fixture.writable 0x10#8 = true := ⟨⟨by decide, by decide⟩, by decide⟩

/-- E5: four answers for a BULK of three actions, the last a read. -/
theorem witness_BulkStepsAgreeWithTheSequentialProgram :
    (bulkReady 0x00030003#32 0#32 (List.replicate 4 (okReply 1#8 5#32))).Inv ∧
    decodesTo (.cmd 0x00030003#32 0#32) (.bulk 3#8) = true ∧
    (bulkReady 0x00030003#32 0#32 []).actionsValid (3#8 : Byte).toNat = true ∧
    (((bulkReady 0x00030003#32 0#32 (List.replicate 4 (okReply 1#8 5#32))).withCmds []).bulkProgram 3#8).isSome = true :=
  ⟨inv_bulkReady _ _ _, by decide⟩

/-- VP8: a BULK of one write at the port. -/
def oneWriteReady : State :=
  { withActions [wr 0x21#8 0x64#32] with
      env := { Env.quiet with hostCmds := [(0x00010003#32, 0#32)], replies := [okReply 1#8 5#32] } }

theorem inv_oneWriteReady : oneWriteReady.Inv :=
  { noFault := by decide
    curAddr := by decide
    seqN := by decide
    seqI := by decide
    txnCount := by decide
    terr := fun h => by cases h
    sequencer := fun h => absurd rfl h }

/-- A BULK whose last action is a read (E5), and one whose last action is a write (VP8). -/
theorem witness_BulkResolvesEveryRead :
    (oneWriteReady.Inv ∧ oneWriteReady.actionsValid (1#8 : Byte).toNat = true ∧
      decodesTo (.cmd 0x00010003#32 0#32) (.bulk 1#8) = true ∧
      [((1#8 : Byte), (5#32 : Word))].length = oneWriteReady.bulkTxns (1#8 : Byte).toNat) ∧
    (bulkReady 0x00030003#32 0#32 (List.replicate 4 (okReply 1#8 5#32))).Inv ∧
    (bulkReady 0x00030003#32 0#32 []).actionsValid (3#8 : Byte).toNat = true ∧
    (List.replicate 4 ((1#8 : Byte), (5#32 : Word))).length = (bulkReady 0x00030003#32 0#32 []).bulkTxns (3#8 : Byte).toNat :=
  ⟨⟨inv_oneWriteReady, by decide⟩, inv_bulkReady _ _ _, by decide⟩

/-- VP12d: the trailing transaction fails. -/
theorem witness_BulkAbortsAtTheFailedTransaction :
    (bulkReady 0x00030003#32 0#32 (List.replicate 3 (okReply 1#8 5#32) ++ [.err token])).Inv ∧
    (List.replicate 3 ((1#8 : Byte), (5#32 : Word))).length < (bulkReady 0x00030003#32 0#32 []).bulkTxns (3#8 : Byte).toNat ∧
    (bulkReady 0x00030003#32 0#32 []).actionsValid (3#8 : Byte).toNat = true := ⟨inv_bulkReady _ _ _, by decide⟩

theorem witness_FirstTransactionsDataIsNeverUsed :
    (bulkAt .wait 0#9 false 1#9 []).Inv ∧ (bulkAt .wait 0#9 false 1#9 []).noReset ∧
    (bulkAt .wait 0#9 false 1#9 []).fsm = .wait ∧ (bulkAt .wait 0#9 false 1#9 []).seqI = 0#9 :=
  ⟨inv_bulkAt _ _ _ _ _ (by decide) (by decide) (by decide) (by decide) (by decide),
    by simp [State.noReset, bulkAt, Env.quiet], by decide⟩

/-- A buffer whose first entry is a Read of a readable address; one whose first entry is a Write of a writable one. -/
theorem witness_SingleAccessEqualsBulkOfOne :
    ((readFirst).Inv ∧ readFirst.fsm = .idle ∧ readFirst.env.resetLine = [] ∧
      readFirst.act = rd 0x04#8 0#32 :: List.replicate 7 Action.empty ∧ readFirst.cfg.readable 0x04#8 = true ∧
      readFirst.env.replies = [okReply 1#8 2#32, okReply 3#8 4#32]) ∧
    ((bulkReady 0#32 0#32 [okReply 1#8 2#32]).Inv ∧
      (bulkReady 0#32 0#32 [okReply 1#8 2#32]).act.head? = some (wr 0x00#8 1#32) ∧
      Config.fixture.writable 0x00#8 = true) := ⟨⟨inv_readFirst, by decide⟩, inv_bulkReady _ _ _, by decide⟩

/-- The answers 2 and 4 agree with a chip that an earlier read of 0x21 has armed, whose register 0x21 reads 2 and whose
register 0x04 reads 4. -/
theorem witness_ReadRegReturnsTheChipsValue :
    readFirst.Inv ∧ readFirst.cfg.readable 0x04#8 = true ∧
    readFirst.env.replies = [okReply 1#8 2#32, okReply 3#8 4#32] ∧
    (Chip.mk (some 0x21#7)).agrees (fun _ a => if a = 0x04#7 then 4#32 else 2#32) 0
      [(mkFrame 0x04#8 readFill, 2#32), (mkFrame 0x04#8 readFill, 4#32)] :=
  ⟨inv_readFirst, by decide, by decide, fun _ h => by cases h; rfl,
    fun _ h => by cases (h.symm.trans (by decide : _ = some 0x04#7)); rfl, trivial⟩

theorem witness_EncodePseudoInstructionBuildsTheWord :
    State.reset.Ready ∧ State.reset.cfg.slot 0x10#8 = some 2 ∧
    [0x10#32, 0x1F#32, 0x6#32].length = State.reset.cfg.nf 2 := ⟨ready_reset, by decide⟩

end Sys2Proof.Tests
end

section
/-! The steps of 00_scope.md: the order of the data phase (R14), which kind of step `FSM` enables and what a step that
is not enabled does (R16), and that an enabled step runs the decoded instruction. -/

namespace Sys2Proof.Machine

/-! ### The data phase -/

/-- The bytes of a word, most significant first, give back the word (00 R14). -/
theorem unbe32_be32 (w : Word) :
    unbe32 (w.extractLsb' 24 8) (w.extractLsb' 16 8) (w.extractLsb' 8 8) (w.extractLsb' 0 8) = w :=
  word_mkFrame 0#8 w

/-- A frame's bytes are its address byte and its word's bytes (20 R64, 30 R84). -/
theorem bytes_mkFrame (b : Byte) (w : Word) : (mkFrame b w).bytes = b :: be32 w := rfl

/-- A frame's two transfers are its address byte and its word's bytes (30 R86). -/
theorem transfers_mkFrame (b : Byte) (w : Word) : (mkFrame b w).transfers = [[b], be32 w] := rfl

/-- Settles O5: the read-back is that of a frame's word. -/
theorem dataPhaseIsBigEndian : Obligations.DataPhaseIsBigEndian :=
  fun b _ _ _ _ w => ⟨rfl, rfl, bytes_mkFrame b w, transfers_mkFrame b w, unbe32_be32 w⟩

/-! ### A step that is not enabled -/

theorem whenIdle_of_busy {s : State} {f : State → Result} (h : s.internalFault = none) (hf : s.fsm ≠ .idle) :
    whenIdle s f = .next s := by
  simp [whenIdle, h, hf]

theorem whenIssue_of_not_issue {s : State} {f : State → Result} (h : s.internalFault = none) (hf : s.fsm ≠ .issue) :
    whenIssue s f = .refused .issueNotEnabled := by
  simp [whenIssue, h, hf]

/-- Every host command is a `HostCmd` step (00 R16). -/
theorem exec_eq_whenIdle {i : Instr} (hi : isFrame i = false) (s : State) : ∃ f, exec i s = whenIdle s f := by
  cases i with
  | readFrame a => simp [isFrame, Instr.mnemonic] at hi
  | writeFrame a v => simp [isFrame, Instr.mnemonic] at hi
  | _ =>
    simp only [exec, execReadReg, execWriteReg, execBulk, execActionWrite, execActionRead, execMapSetState,
      execMapStoreRes, execMapGet, execMapDefault, execStateCheck, execStateSet, execFieldGet, execFieldGetRes,
      execFieldSet, execFieldSetRes, execAddrInfo, execAddrEnum]
    exact ⟨_, rfl⟩

/-- Every wire frame is an `Issue` step (00 R16, 42 R161). -/
theorem exec_eq_whenIssue {i : Instr} (hi : isFrame i = true) (s : State) : ∃ f, exec i s = whenIssue s f := by
  cases i with
  | readFrame a => exact ⟨_, by rw [exec, execReadFrame]⟩
  | writeFrame a v => exact ⟨_, by rw [exec, execWriteFrame]⟩
  | _ => simp [isFrame, Instr.mnemonic] at hi

@[simp] theorem resolvePrevious_env (s : State) (i : Nat) (rx : Word) : (s.resolvePrevious i rx).env = s.env := by
  rw [resolvePrevious_eq]

/-- The continuation of a command in progress touches nothing outside the block. -/
theorem ReplyEffect.env_eq {st : Byte} {rx : Word} {s t : State} (h : ReplyEffect st rx s t) : t.env = s.env := by
  cases h <;> simp

/-- Only a `HostCmd` step takes a command from the port (30 R92). -/
theorem StepEffect.hostCmds_eq {s u t : State} (h : StepEffect s u t) (hf : s.fsm ≠ .idle) :
    t.env.hostCmds = u.env.hostCmds := by
  cases h with
  | noCommand hi => exact absurd hi hf
  | illegal w d rest hi hc => exact absurd hi hf
  | command i w d rest t hi hc hd he => exact absurd hi hf
  | issue f hi hw => simp
  | noReply hi hr => rfl
  | replyErr e rest hi hr => simp
  | replyOk st b0 b1 b2 b3 rest t hi hr he => simp [he.env_eq]

/-- Settles O30: a command is guarded by `FSM = IDLE` and a frame by `FSM = ISSUE`, and no effect of a step outside IDLE
reaches the command port. -/
theorem disabledStepsWait : Obligations.DisabledStepsWait := by
  refine ⟨fun s i h => ⟨fun hi hf => ?_, fun hi hf => ?_⟩, fun s t hr hf h => ?_⟩
  · obtain ⟨f, hx⟩ := exec_eq_whenIdle hi s
    rw [hx, whenIdle_of_busy h hf]
  · obtain ⟨f, hx⟩ := exec_eq_whenIssue hi s
    rw [hx, whenIssue_of_not_issue h hf]
  · obtain ⟨-, he⟩ := step_effect hr h
    exact he.hostCmds_eq hf

/-! ### An enabled step -/

theorem runDecoded_of_ok {c : Encoded} {i : Instr} (h : decode c = .ok i) (s : State) : runDecoded c s = exec i s := by
  simp [runDecoded, h]

/-- Without `Reset` an idle block takes the pair at the port (30 R92). -/
theorem step_of_command {s : State} {w d : Word} {rest : List (Word × Word)} (h : s.internalFault = none)
    (hr : s.noReset) (hf : s.fsm = .idle) (hc : s.env.hostCmds = (w, d) :: rest) :
    step s = runDecoded (.cmd w d) (s.ticked.withCmds rest) := by
  rw [step_of_noReset hr, engineStep_idle (by simpa using h) (by simpa using hf)]
  simp [State.hostCmdStep, hc]

/-- Without `Reset` an issuing block runs FRAME(state) (42 R161). -/
theorem step_of_frame {s : State} {f : WireFrame} (h : s.internalFault = none) (hr : s.noReset) (hf : s.fsm = .issue)
    (hw : s.frame = some f) : step s = runDecoded (.frame f) s.ticked := by
  rw [step_of_noReset hr, engineStep_issue (by simpa using h) (by simpa using hf)]
  simp [State.issueStep, hw]

/-- Settles O31: each enabled step runs its encoded instruction, which decodes to `i`. -/
theorem stepRunsTheDecodedInstruction : Obligations.StepRunsTheDecodedInstruction := by
  refine fun s i h hr => ⟨fun w d rest hf hc hd => ?_, fun f hf hw hd => ?_⟩
  · rw [step_of_command h hr hf hc, runDecoded_of_ok hd]
  · rw [step_of_frame h hr hf hw, runDecoded_of_ok hd]

end Sys2Proof.Machine
end

section
/-! The invariant of the block (10_state.md): the reset state has it, every operation the steps share keeps it, and so
does every step. -/

namespace Sys2Proof.Machine

variable {s t : State}

/-! ### Configuration and addresses -/

/-- A known address is the address of a catalog entry (41 R130, R146). -/
theorem slot_isSome_iff {c : Config} {a : Byte} :
    (c.slot a).isSome = true ↔ ∃ e ∈ c.catalog, e.addr.setWidth 8 = a := by
  simp [Config.slot]

/-- A known address is a logical address (20 R61). -/
theorem lt_of_slot_isSome {c : Config} {a : Byte} (h : (c.slot a).isSome = true) : a.toNat < 128 := by
  obtain ⟨e, -, rfl⟩ := slot_isSome_iff.1 h
  have := e.addr.isLt
  rw [BitVec.toNat_setWidth]
  omega

/-- A property of the entry an address selects holds only of a known address. -/
theorem slot_isSome_of_entryOf {c : Config} {a : Byte} {p : CatalogEntry → Bool} (h : (c.entryOf a).any p = true) :
    (c.slot a).isSome = true := by
  cases hk : c.slot a with
  | none => simp [Config.entryOf, hk] at h
  | some k => rfl

theorem slot_isSome_of_readable {c : Config} {a : Byte} (h : c.readable a = true) : (c.slot a).isSome = true :=
  slot_isSome_of_entryOf h

theorem slot_isSome_of_writable {c : Config} {a : Byte} (h : c.writable a = true) : (c.slot a).isSome = true :=
  slot_isSome_of_entryOf h

/-- The actions of an accepted BULK fit in the buffer (42 R169). -/
theorem le_maxActions_of_actionsValid {n : Nat} (h : s.actionsValid n = true) : n ≤ s.cfg.maxActions := by
  simp only [State.actionsValid, Bool.and_eq_true, decide_eq_true_eq] at h
  exact h.1

/-! ### The words of the action buffer -/

/-- Writing an action's word keeps what a BULK needs of the buffer: its valid entries. -/
@[simp] theorem setActWord_actionsValid (j : Nat) (v : Word) (n : Nat) :
    (s.setActWord j v).actionsValid n = s.actionsValid n := by
  have key : ((s.setActWord j v).act.map (·.valid)) = s.act.map (·.valid) := by
    refine List.ext_getElem? fun i => ?_
    simp only [State.setActWord_act, List.getElem?_map, List.getElem?_modify]
    cases s.act[i]? <;> by_cases h : j = i <;> simp [h]
  have all : ∀ l : List Action, (l.take n).all (·.valid) = ((l.map (·.valid)).take n).all id := by
    simp [← List.map_take]
  rw [State.actionsValid, State.actionsValid, all, key, ← all, State.setActWord_cfg]

/-- Writing an action's word keeps the kind of every action. -/
@[simp] theorem setActWord_isReadAt (j : Nat) (v : Word) (i : Nat) :
    (s.setActWord j v).isReadAt i = s.isReadAt i := by
  simp only [State.isReadAt, State.setActWord_act, List.getElem?_modify]
  cases s.act[i]? <;> by_cases h : j = i <;> simp [h]

theorem bulkInv_setActWord {j : Nat} {v : Word} : (s.setActWord j v).bulkInv ↔ s.bulkInv := by
  simp only [State.bulkInv, setActWord_actionsValid, setActWord_isReadAt]
  rfl

/-- Every entry after a word is written has the valid bit and the tag of an entry before. -/
theorem mem_setActWord {j : Nat} {v : Word} {e : Action} (h : e ∈ (s.setActWord j v).act) :
    ∃ e' ∈ s.act, e.valid = e'.valid ∧ e.tag = e'.tag := by
  obtain ⟨i, hi⟩ := List.mem_iff_getElem?.1 h
  simp only [State.setActWord_act, List.getElem?_modify, Option.map_eq_map, Option.map_eq_some_iff] at hi
  obtain ⟨e', he', rfl⟩ := hi
  refine ⟨e', List.mem_of_getElem? he', ?_⟩
  by_cases h : j = i <;> simp [h]

/-- Resolving an action writes one word of the buffer; a word of no entry where there is nothing to resolve. -/
theorem resolvePrevious_eq_setActWord (s : State) (i : Nat) (rx : Word) :
    ∃ j, s.resolvePrevious i rx = s.setActWord j rx := by
  have nothing : s.setActWord s.act.length rx = s := by
    rw [State.setActWord, List.modify_eq_self (Nat.le_refl _)]
  unfold State.resolvePrevious
  split
  · exact ⟨_, nothing.symm⟩
  · rename_i j
    split
    · split
      · exact ⟨j, rfl⟩
      · exact ⟨_, nothing.symm⟩
    · exact ⟨_, nothing.symm⟩

/-! ### No internal fault -/

/-- `FSM` may take every value but 3 (10 R21). -/
theorem noFault_of_fsm (h : s.internalFault = none) {f : Fsm} (hf : f ≠ .reserved3) :
    { s with fsm := f }.internalFault = none := by
  rw [internalFault_eq_none] at h ⊢
  exact ⟨hf, h.2⟩

theorem noFault_setRes (h : s.internalFault = none) {tag : Byte} (w : Word) (hk : s.known tag = true) :
    (s.setRes tag w).internalFault = none := by
  rw [noFault_iff] at h ⊢
  obtain ⟨hf, hm, ha, -, hl⟩ := h
  exact ⟨hf, hm, ha, fun _ => hk, hl⟩

/-- A map that keeps its tags keeps the absence of a fault (41 R145). -/
theorem noFault_of_tags (h : s.internalFault = none) {l : List MapSlot} (hl : l.map (·.tag) = s.map.map (·.tag)) :
    { s with map := l }.internalFault = none := by
  rw [internalFault_eq_none] at h ⊢
  exact ⟨h.1, hl.trans h.2.1, h.2.2⟩

theorem noFault_setAct (h : s.internalFault = none) (k : Nat) {e : Action} (hk : s.known e.tag = true) :
    (s.setAct k e).internalFault = none := by
  rw [noFault_iff] at h ⊢
  obtain ⟨hf, hm, ha, hr, hl⟩ := h
  refine ⟨hf, hm, fun e' he' hv => ?_, hr, by rw [setAct_length]; exact hl⟩
  obtain hmem | rfl := List.mem_or_eq_of_mem_set he'
  · exact ha e' hmem hv
  · exact hk

theorem noFault_setActWord (h : s.internalFault = none) (j : Nat) (v : Word) :
    (s.setActWord j v).internalFault = none := by
  rw [noFault_iff] at h ⊢
  obtain ⟨hf, hm, ha, hr, hl⟩ := h
  refine ⟨hf, hm, fun e he hv => ?_, hr, by rw [setActWord_length]; exact hl⟩
  obtain ⟨e', hmem, hvalid, htag⟩ := mem_setActWord he
  rw [htag]
  exact ha e' hmem (hvalid ▸ hv)

/-! ### The state after Reset -/

theorem inv_resetOf (c : Config) (env : Env) : (State.resetOf c env).Inv where
  noFault := resetOf_noFault c env
  curAddr := by simp [State.resetOf]
  seqN := by simp [State.resetOf]
  seqI := by simp [State.resetOf]
  txnCount := by simp [State.resetOf]
  terr := fun h => by cases h
  sequencer := fun h => absurd rfl h

/-- Settles O48: the reset state is idle, its counters are zero and it has no internal fault. -/
theorem resetSatisfiesTheInvariant : Obligations.ResetSatisfiesTheInvariant :=
  ⟨inv_resetOf, inv_resetOf _ _, rfl⟩

/-- No command ends in a transport error in its `HostCmd` step (60 R200). -/
theorem not_mem_errorsOf (i : Instr) : ErrCode.transportError ∉ errorsOf i := by
  cases i <;> simp [errorsOf]

/-! ### The operations keep the invariant -/

namespace State.Inv

/-- The environment is no part of the invariant. -/
theorem ticked (h : s.Inv) : s.ticked.Inv := { h with }

theorem withCmds (h : s.Inv) (l : List (Word × Word)) : (s.withCmds l).Inv := { h with }

theorem withReplies (h : s.Inv) (l : List Reply) : (s.withReplies l).Inv := { h with }

/-- An error other than a transport error needs no payload (10 R35, 60 R204). -/
theorem raise (h : s.Inv) {e : ErrCode} (he : e ≠ .transportError) : (s.raise e).Inv :=
  { h with
    noFault := noFault_of_fsm h.noFault (f := .idle) (by decide)
    terr := fun he' => absurd he' he
    sequencer := fun hi => absurd rfl hi }

theorem raiseTransport (h : s.Inv) (e : TErr) : (s.raiseTransport e).Inv :=
  { h with
    noFault := noFault_of_fsm h.noFault (f := .idle) (by decide)
    terr := fun _ => rfl
    sequencer := fun hi => absurd rfl hi }

theorem succeed (h : s.Inv) : s.succeed.Inv :=
  { h with terr := fun he => nomatch he }

theorem setAux (h : s.Inv) (w : Word) : (s.setAux w).Inv := { h with }

theorem setStatus (h : s.Inv) (st : Byte) : (s.setStatus st).Inv := { h with }

theorem setResWord (h : s.Inv) (w : Word) : (s.setResWord w).Inv := { h with }

theorem setRes (h : s.Inv) {tag : Byte} (w : Word) (hk : s.known tag = true) : (s.setRes tag w).Inv :=
  { h with noFault := noFault_setRes h.noFault w hk }

theorem setMapWord (h : s.Inv) (k : Nat) (w : Word) : (s.setMapWord k w).Inv :=
  { h with noFault := noFault_of_tags h.noFault (setMapWord_tags s k w) }

theorem mapDefaults (h : s.Inv) : s.mapDefaults.Inv :=
  { h with noFault := noFault_of_tags h.noFault (mapDefaults_tags h.noFault) }

/-- An entry may be replaced while no BULK is in progress (42 R167). -/
theorem setAct (h : s.Inv) (hf : s.fsm = .idle) (k : Nat) {e : Action} (hk : s.known e.tag = true) :
    (s.setAct k e).Inv :=
  { h with
    noFault := noFault_setAct h.noFault k hk
    sequencer := fun hi => absurd hf hi }

/-- A word may be written while a BULK is in progress (42 R171). -/
theorem setActWord (h : s.Inv) (j : Nat) (v : Word) : (s.setActWord j v).Inv :=
  { h with
    noFault := noFault_setActWord h.noFault j v
    sequencer := fun hi => by
      obtain hs | hs | ⟨ho, hs⟩ := h.sequencer hi
      · exact .inl hs
      · exact .inr (.inl hs)
      · exact .inr (.inr ⟨ho, bulkInv_setActWord.2 hs⟩) }

/-! ### Acceptance (42 R165, R166, R169) -/

theorem acceptReadReg (h : s.Inv) {a : Byte} (ha : s.cfg.readable a = true) :
    { s.accept opReadReg with curAddr := a }.Inv :=
  { h with
    noFault := noFault_of_fsm h.noFault (f := .issue) (by decide)
    curAddr := lt_of_slot_isSome (slot_isSome_of_readable ha)
    seqI := Nat.zero_le _
    txnCount := Nat.zero_le _
    sequencer := fun _ => .inl ⟨rfl, ha, Nat.zero_le _, rfl, rfl⟩ }

theorem acceptWriteReg (h : s.Inv) {a : Byte} (v : Word) (ha : s.cfg.writable a = true) :
    { s.accept opWriteReg with curAddr := a, curData := v }.Inv :=
  { h with
    noFault := noFault_of_fsm h.noFault (f := .issue) (by decide)
    curAddr := lt_of_slot_isSome (slot_isSome_of_writable ha)
    seqI := Nat.zero_le _
    txnCount := Nat.zero_le _
    sequencer := fun _ => .inr (.inl ⟨rfl, ha, rfl, rfl, rfl⟩) }

/-- A BULK of no action only clears the transaction count (42 R174). -/
theorem clearTxnCount (h : s.Inv) (hf : s.fsm = .idle) : { s with txnCount := 0#9 }.Inv :=
  { h with
    txnCount := Nat.zero_le _
    sequencer := fun hi => absurd hf hi }

theorem acceptBulk (h : s.Inv) {n : Byte} (hn : 1 ≤ n.toNat) (hv : s.actionsValid n.toNat = true) :
    { s.accept opBulk with seqN := n }.Inv :=
  { h with
    noFault := noFault_of_fsm h.noFault (f := .issue) (by decide)
    seqN := le_maxActions_of_actionsValid hv
    seqI := Nat.zero_le _
    txnCount := Nat.zero_le _
    sequencer := fun _ => .inr (.inr ⟨rfl, hn, hv, fun _ => hn, fun ht => absurd ht Bool.false_ne_true, rfl⟩) }

/-- A host command keeps the invariant. -/
theorem command {i : Instr} (h : s.Inv) (hf : s.fsm = .idle) (he : CommandEffect i s t) : t.Inv := by
  cases he with
  | error e he => exact h.raise fun hx => not_mem_errorsOf i (hx ▸ he)
  | query w hw => exact (h.setAux w).succeed
  | check => exact h.succeed
  | resWord w hw => exact (h.setResWord w).succeed
  | res tag w hw hk => exact (h.setRes w hk).succeed
  | resAux tag w x hw hx hk => exact ((h.setRes w hk).setAux x).succeed
  | mapWord k w hw => exact (h.setMapWord k w).succeed
  | mapDefaults hw => exact h.mapDefaults.succeed
  | action k kind a v hi hk => exact (h.setAct hf k.toNat hk).succeed
  | readReg a hi hr => exact h.acceptReadReg hr
  | writeReg a v hi hw => exact h.acceptWriteReg v hw
  | bulkNone hi => exact (h.clearTxnCount hf).succeed
  | bulk n hi hn hv => exact h.acceptBulk hn hv

/-! ### Issue and Reply (42 R161, R165, R166, R171, R172) -/

/-- While a command is in progress, `TXN_COUNT` is the transaction's number, plus one once it is issued (10 R30). -/
theorem txnCount_eq (h : s.Inv) (hf : s.fsm ≠ .idle) : s.txnCount.toNat = s.seqI.toNat + s.outstanding := by
  obtain ⟨-, -, -, -, ht⟩ | ⟨-, -, hi, -, ht⟩ | ⟨-, -, -, -, -, ht⟩ := h.sequencer hf
  · exact ht
  · rw [ht, hi, Nat.zero_add]
  · exact ht

/-- An Issue step counts the transaction it hands over (10 R30). -/
theorem issue (h : s.Inv) (hf : s.fsm = .issue) (f : WireFrame) : (s.issue f).Inv := by
  have hb : s.fsm ≠ .idle := by simp [hf]
  have ht : s.txnCount.toNat = s.seqI.toNat := by simpa [State.outstanding, hf] using h.txnCount_eq hb
  have ht' : (s.txnCount + 1#9).toNat = s.seqI.toNat + 1 := by
    have := h.seqI
    rw [BitVec.toNat_add, ht, show (1#9).toNat = 1 from rfl]
    omega
  refine { h with
    noFault := noFault_of_fsm h.noFault (f := .wait) (by decide)
    txnCount := by rw [State.issue_txnCount, ht']; have := h.seqI; omega
    sequencer := fun _ => ?_ }
  obtain ⟨ho, hr, hi, hs, -⟩ | ⟨ho, hw, hi, hs, -⟩ | ⟨ho, hn, hv, h0, h1, -⟩ := h.sequencer hb
  · exact .inl ⟨ho, hr, hi, hs, ht'⟩
  · exact .inr (.inl ⟨ho, hw, hi, hs, by rw [State.issue_txnCount, ht', hi]; rfl⟩)
  · exact .inr (.inr ⟨ho, hn, hv, h0, h1, ht'⟩)

/-- The sequencer of the READ_REG in progress. -/
theorem readRegInv (h : s.Inv) (hf : s.fsm ≠ .idle) (ho : s.curOp = opReadReg) : s.readRegInv := by
  obtain ⟨-, hs⟩ | ⟨hw, -⟩ | ⟨hb, -⟩ := h.sequencer hf
  · exact hs
  · exact absurd (ho.symm.trans hw) (by decide)
  · exact absurd (ho.symm.trans hb) (by decide)

/-- The sequencer of the BULK in progress. -/
theorem bulkInv (h : s.Inv) (hf : s.fsm ≠ .idle) (ho : s.curOp = opBulk) : s.bulkInv := by
  obtain ⟨hr, -⟩ | ⟨hw, -⟩ | ⟨-, hs⟩ := h.sequencer hf
  · exact absurd (ho.symm.trans hr) (by decide)
  · exact absurd (ho.symm.trans hw) (by decide)
  · exact hs

/-- While the block waits for an answer, the transaction is counted. -/
theorem txnCount_of_wait (h : s.Inv) (hf : s.fsm = .wait) : s.txnCount.toNat = s.seqI.toNat + 1 := by
  simpa [State.outstanding, hf] using h.txnCount_eq (by simp [hf])

/-- The last answer ends the command (42 R165, R166, R172). -/
theorem finish (h : s.Inv) (st : Byte) : { s.setStatus st with err := .none, fsm := .idle }.Inv :=
  (h.setStatus st).raise (by decide)

/-- The first answer of a READ_REG starts its second transaction (42 R165). -/
theorem armReadReg (h : s.Inv) (hf : s.fsm = .wait) (ho : s.curOp = opReadReg) (hi : s.seqI.toNat = 0) :
    { s with seqI := 1#9, fsm := .issue }.Inv := by
  obtain ⟨hr, -, hs, -⟩ := h.readRegInv (by simp [hf]) ho
  have ht := h.txnCount_of_wait hf
  exact { h with
    noFault := noFault_of_fsm h.noFault (f := .issue) (by decide)
    seqI := Nat.le_of_ble_eq_true rfl
    sequencer := fun _ => .inl ⟨ho, hr, Nat.le_refl 1, hs, by rw [ht, hi]; rfl⟩ }

/-- An answer of a BULK before the last action's starts the next transaction (42 R171). -/
theorem bulkNext (h : s.Inv) (hf : s.fsm = .wait) (ho : s.curOp = opBulk) (ht : s.seqTrail = false)
    (hi : s.seqI.toNat + 1 < s.seqN.toNat) : { s with seqI := s.seqI + 1#9, fsm := .issue }.Inv := by
  obtain ⟨hn, hv, -, -, -⟩ := h.bulkInv (by simp [hf]) ho
  have hx : (s.seqI + 1#9).toNat = s.seqI.toNat + 1 := by bv_omega
  exact { h with
    noFault := noFault_of_fsm h.noFault (f := .issue) (by decide)
    seqI := hx.trans_le (by omega)
    sequencer := fun _ => .inr (.inr ⟨ho, hn, hv, fun _ => hx.trans_lt hi,
      fun ht' => absurd (ht.symm.trans ht') Bool.false_ne_true, (h.txnCount_of_wait hf).trans hx.symm⟩) }

/-- The answer to a last action that is a read starts the trailing transaction (42 R172). -/
theorem bulkToTrailing (h : s.Inv) (hf : s.fsm = .wait) (ho : s.curOp = opBulk)
    (hi : s.seqI.toNat + 1 = s.seqN.toNat) (hr : s.isReadAt s.seqI.toNat = true) :
    { s with seqTrail := true, seqI := s.seqN.setWidth 9, fsm := .issue }.Inv := by
  obtain ⟨hn, hv, -, -, -⟩ := h.bulkInv (by simp [hf]) ho
  have hx : (s.seqN.setWidth 9).toNat = s.seqN.toNat := by bv_omega
  have hlast : s.isReadAt (s.seqN.toNat - 1) = true := by rwa [← hi]
  exact { h with
    noFault := noFault_of_fsm h.noFault (f := .issue) (by decide)
    seqI := hx.trans_le (by omega)
    sequencer := fun _ => .inr (.inr ⟨ho, hn, hv, fun ht => absurd ht.symm Bool.false_ne_true, fun _ => ⟨hx, hlast⟩,
      ((h.txnCount_of_wait hf).trans hi).trans hx.symm⟩) }

/-- An OK answer keeps the invariant: a BULK's answer writes a word of its buffer, then the sequencer goes on or ends. -/
theorem replyOk {st : Byte} {rx : Word} (h : s.Inv) (hf : s.fsm = .wait) (he : ReplyEffect st rx s t) : t.Inv := by
  have hres (i : Nat) := resolvePrevious_eq_setActWord s i rx
  cases he with
  | readRegArmed ho hi => exact h.armReadReg hf ho hi
  | readRegDone ho hi =>
    obtain ⟨hr, -⟩ := h.readRegInv (by simp [hf]) ho
    exact (h.setRes rx (slot_isSome_of_readable hr)).finish st
  | writeRegDone ho => exact h.finish st
  | bulkNext ho ht hi =>
    obtain ⟨j, hj⟩ := hres s.seqI.toNat
    rw [hj]
    exact (h.setActWord j rx).bulkNext hf ho ht hi
  | bulkToTrailing ho ht hi hr =>
    obtain ⟨j, hj⟩ := hres s.seqI.toNat
    rw [hj]
    exact (h.setActWord j rx).bulkToTrailing hf ho hi (by simpa using hr)
  | bulkDone ho ht hi hr =>
    obtain ⟨j, hj⟩ := hres s.seqI.toNat
    rw [hj]
    exact (h.setActWord j rx).finish st
  | trailingDone ho ht hn => exact (h.setActWord _ rx).finish st

end State.Inv

/-! ### Steps -/

/-- An asserted `Reset` gives the reset state (70 R230). -/
theorem step_of_reset (hr : ¬ s.noReset) : ∃ env, step s = .next (State.resetOf s.cfg env) := by
  rw [State.noReset, not_not] at hr
  cases hl : s.env.resetLine with
  | nil => simp [hl] at hr
  | cons b rest =>
    obtain rfl : b = true := by simpa [hl] using hr
    exact ⟨_, by simp only [step, State.nextStep, hl]; rfl⟩

/-- Settles O49: an asserted `Reset` gives the reset state; without it, each effect of a step keeps the invariant. -/
theorem everyStepKeepsTheInvariant : Obligations.EveryStepKeepsTheInvariant := by
  intro s t h hstep
  by_cases hr : s.noReset
  · obtain ⟨-, he⟩ := step_effect hr hstep
    have hu : s.ticked.Inv := h.ticked
    cases he with
    | noCommand hf => exact hu
    | illegal w d rest hf hc => exact (hu.withCmds rest).raise (by decide)
    | command i w d rest t hf hc hd he => exact (hu.withCmds rest).command hf he
    | issue f hf hw => exact hu.issue hf f
    | noReply hf hn => exact hu
    | replyErr e rest hf hn => exact (hu.withReplies rest).raiseTransport e
    | replyOk st b0 b1 b2 b3 rest t hf hn he => exact (hu.withReplies rest).replyOk hf he
  · obtain ⟨env, hx⟩ := step_of_reset hr
    rw [hx] at hstep
    cases hstep
    exact inv_resetOf s.cfg env

end Sys2Proof.Machine
end

section
/-! The invariant in the spec's words: the registers' ranges, the tags of map, action buffer and transient state, and the
response port (10 R26, R30, R34, R37, R40, 30 R93). -/

namespace Sys2Proof.Machine

variable {s : State}

/-- The addresses of the catalog are pairwise distinct (00 R7). -/
theorem catalog_addrs_nodup (c : Config) : (c.catalog.map (·.addr)).Nodup := by
  have h := c.checked
  simp only [configCheck, Catalog.wellFormed, Bool.and_eq_true, and_assoc] at h
  obtain ⟨hd, -⟩ := h
  exact of_decide_eq_true hd

/-- An entry's position is the slot of its address (41 R130). -/
theorem slot_addr {c : Config} {k : Nat} {e : CatalogEntry} (h : c.catalog[k]? = some e) :
    c.slot (e.addr.setWidth 8) = some k := by
  obtain ⟨hk, rfl⟩ := List.getElem?_eq_some_iff.1 h
  refine List.findIdx?_eq_some_iff_getElem.2 ⟨hk, by simp, fun j hj hsame => ?_⟩
  have heq : c.catalog[j].addr = c.catalog[k].addr := by
    have := eq_of_beq hsame
    bv_omega
  have hinj := (catalog_addrs_nodup c).getElem_inj_iff (i := j) (j := k) (hi := by simp; omega) (hj := by simpa)
  exact absurd (hinj.1 (by simpa using heq)) (by omega)

/-- The codes of `ERR` that exist are 0 to 7 (10 R34). -/
theorem ErrCode.code_le (e : ErrCode) : e.code ≤ 7#4 := by
  cases e <;> decide

/-- Only TRANSPORT_ERROR has the code 3 (10 R34). -/
theorem ErrCode.eq_transportError {e : ErrCode} : e.code = 3#4 → e = .transportError := by
  cases e <;> decide

namespace State.Inv

/-- The response port's outputs are among their legal values (10 R40, 30 R93). -/
theorem response_legal (h : s.Inv) :
    s.response.err ≤ 7#4 ∧ s.response.txnCount ≤ 256#9 ∧
      (s.response.validState = true → ∃ e ∈ s.cfg.catalog, e.addr.setWidth 8 = s.response.tag) ∧
      (s.response.err = 3#4 → s.response.terr.isSome = true) := by
  obtain ⟨-, -, -, hres, -⟩ := noFault_iff.1 h.noFault
  exact ⟨s.err.code_le, h.txnCount, fun hv => slot_isSome_iff.1 (hres hv),
    fun he => h.terr (ErrCode.eq_transportError he)⟩

/-- `FSM` is never 3 (10 R21). -/
theorem fsm_cases (h : s.Inv) : s.fsm = .idle ∨ s.fsm = .issue ∨ s.fsm = .wait := by
  obtain ⟨hf, -⟩ := noFault_iff.1 h.noFault
  cases hx : s.fsm with
  | idle => exact .inl rfl
  | issue => exact .inr (.inl rfl)
  | wait => exact .inr (.inr rfl)
  | reserved3 => exact absurd hx hf

/-- Slot `k` of the map has the tag `CATALOG[k].addr`, whose slot is `k` (41 R146). -/
theorem mapSlot (h : s.Inv) {k : Nat} {e : CatalogEntry} (hk : s.cfg.catalog[k]? = some e) :
    ∃ m, s.map[k]? = some m ∧ m.tag = e.addr ∧ s.cfg.slot (m.tag.setWidth 8) = some k := by
  obtain ⟨m, hm, ht⟩ := mapSlot_of_noFault h.noFault hk
  exact ⟨m, hm, ht, by rw [ht]; exact slot_addr hk⟩

/-- In a BULK the trailing transaction is the one of number `SEQ_N` (10 R26). -/
theorem seqTrail_iff (h : s.Inv) (hf : s.fsm ≠ .idle) (ho : s.curOp = opBulk) :
    s.seqTrail = true ↔ s.seqI.toNat = s.seqN.toNat := by
  obtain ⟨-, -, hbefore, htrail, -⟩ := h.bulkInv hf ho
  refine ⟨fun ht => (htrail ht).1, fun hi => ?_⟩
  by_contra hn
  have := hbefore (Bool.eq_false_of_not_eq_true hn)
  omega

/-- Before its transaction is issued, `TXN_COUNT` is the number of the transaction (10 R30). -/
theorem txnCount_of_issue (h : s.Inv) (hf : s.fsm = .issue) : s.txnCount = s.seqI :=
  BitVec.eq_of_toNat_eq (by simpa [State.outstanding, hf] using h.txnCount_eq (by simp [hf]))

end State.Inv

/-- Settles O51: the absence of an internal fault gives the tags, the sequencer's clause the registers of a BULK. -/
theorem invariantInTheSpecsWords : Obligations.InvariantInTheSpecsWords := by
  refine ⟨rfl, fun s h => ⟨⟨rfl, h.response_legal⟩, h.fsm_cases, fun k e hk => h.mapSlot hk, ?_, ?_, fun hf ho => ?_⟩⟩
  · obtain ⟨-, -, hact, -, -⟩ := noFault_iff.1 h.noFault
    exact fun k e hk => hact e (List.mem_of_getElem? hk)
  · obtain ⟨-, -, -, hres, -⟩ := noFault_iff.1 h.noFault
    exact hres
  · exact ⟨h.seqTrail_iff hf ho, h.seqI, h.txnCount_of_wait, h.txnCount_of_issue⟩

end Sys2Proof.Machine
end

section
/-! What writes each register of the block (10_state.md): first what a command and an answer may write, then what a step
may. -/

namespace Sys2Proof.Machine

variable {s t : State} {i : Instr} {st : Byte} {rx : Word}

/-! ### What no command and no answer writes -/

/-- No command writes the transmit registers, `RES_STATUS`, `TERR`, the configuration or the environment. -/
theorem CommandEffect.unwritten (h : CommandEffect i s t) :
    t.txAbyte = s.txAbyte ∧ t.txData = s.txData ∧ t.resStatus = s.resStatus ∧ t.terr = s.terr ∧ t.cfg = s.cfg ∧
      t.env = s.env := by
  cases h <;> exact ⟨rfl, rfl, rfl, rfl, rfl, rfl⟩

/-- An OK answer writes no register but these: `FSM`, `SEQ_I`, `SEQ_TRAIL`, `ERR`, the result registers and the action
buffer. -/
theorem ReplyEffect.frame (h : ReplyEffect st rx s t) :
    t = { s with fsm := t.fsm, seqI := t.seqI, seqTrail := t.seqTrail, err := t.err, resStatus := t.resStatus,
                 resTag := t.resTag, resWord := t.resWord, resValid := t.resValid, act := t.act } := by
  obtain ⟨j, hj⟩ := resolvePrevious_eq_setActWord s s.seqI.toNat rx
  cases h with
  | bulkNext ho ht hi => rw [hj]; rfl
  | bulkToTrailing ho ht hi hr => rw [hj]; rfl
  | bulkDone ho ht hi hr => rw [hj]; rfl
  | _ => rfl

/-! ### The map and the configuration -/

/-- Only the map's own commands write the map (10 R36). -/
theorem CommandEffect.map_writers (h : CommandEffect i s t) : t.map = s.map ∨ writesMap i = true := by
  cases h with
  | mapWord k w hw => exact .inr hw
  | mapDefaults hw => exact .inr hw
  | _ => exact .inl rfl

/-- No command changes a map tag (41 R145). -/
theorem CommandEffect.map_tags (h : CommandEffect i s t) (hs : s.internalFault = none) :
    t.map.map (·.tag) = s.map.map (·.tag) := by
  cases h with
  | mapWord k w hw => exact setMapWord_tags s k w
  | mapDefaults hw => exact mapDefaults_tags hs
  | _ => rfl

theorem step_cfg (hr : s.noReset) (h : step s = .next t) : t.cfg = s.cfg := by
  obtain ⟨-, he⟩ := step_effect hr h
  cases he with
  | command i w d rest t hf hc hd he =>
    obtain ⟨-, -, -, -, hcfg, -⟩ := he.unwritten
    exact hcfg
  | replyOk st b0 b1 b2 b3 rest t hf hn he => rw [he.frame]; rfl
  | _ => rfl

theorem step_map_tags (hr : s.noReset) (h : step s = .next t) : t.map.map (·.tag) = s.map.map (·.tag) := by
  obtain ⟨h0, he⟩ := step_effect hr h
  cases he with
  | command i w d rest t hf hc hd he => exact he.map_tags h0
  | replyOk st b0 b1 b2 b3 rest t hf hn he => rw [he.frame]; rfl
  | _ => rfl

/-- Settles O41: `Reset` gives each slot the catalog's tag, which it had; no other step writes a tag. -/
theorem mapTagsAndConfigNeverChange : Obligations.MapTagsAndConfigNeverChange := by
  intro s t htags h
  by_cases hr : s.noReset
  · exact ⟨step_cfg hr h, step_map_tags hr h⟩
  · obtain ⟨env, hx⟩ := step_of_reset hr
    rw [hx] at h
    cases h
    exact ⟨rfl, by rw [htags]; simp [State.resetOf]⟩

/-- Settles O42: of the commands only the map's own write it, and an answer's frame leaves it out. -/
theorem onlyMapCommandsWriteTheMap : Obligations.OnlyMapCommandsWriteTheMap := by
  intro s t hr h
  obtain ⟨-, he⟩ := step_effect hr h
  cases he with
  | command i w d rest t hf hc hd he => exact he.map_writers.imp_right fun hw => ⟨i, ⟨hf, w, d, rest, hc, hd⟩, hw⟩
  | replyOk st b0 b1 b2 b3 rest t hf hn he => exact .inl (by rw [he.frame]; rfl)
  | _ => exact .inl rfl

/-! ### The result registers -/

/-- Only MAP_GET, ACTION_READ, STATE_SET and FIELD_SET_RES write the transient state in their step (10 R32). -/
theorem CommandEffect.res_writers (h : CommandEffect i s t) :
    (t.resTag = s.resTag ∧ t.resWord = s.resWord ∧ t.resValid = s.resValid) ∨ writesRes i = true := by
  cases h with
  | resWord w hw => exact .inr hw
  | res tag w hw hk => exact .inr hw
  | resAux tag w x hw hx hk => exact .inr hw
  | _ => exact .inl ⟨rfl, rfl, rfl⟩

/-- No command clears `RES_VALID` (10 R32). -/
theorem CommandEffect.resValid_kept (h : CommandEffect i s t) (hv : s.resValid = true) : t.resValid = true := by
  cases h with
  | res tag w hw hk => rfl
  | resAux tag w x hw hx hk => rfl
  | _ => exact hv

/-- Only the query commands write `RES_AUX` (10 R33). -/
theorem CommandEffect.resAux_writers (h : CommandEffect i s t) : t.resAux = s.resAux ∨ writesAux i = true := by
  cases h with
  | query w hw => exact .inr hw
  | resAux tag w x hw hx hk => exact .inr hx
  | _ => exact .inl rfl

/-- An answer writes the transient state where it is a READ_REG's, and makes it valid (10 R32, 42 R165). -/
theorem ReplyEffect.res_writers (h : ReplyEffect st rx s t) :
    (t.resTag = s.resTag ∧ t.resWord = s.resWord ∧ t.resValid = s.resValid) ∨
      (s.curOp = opReadReg ∧ t.resValid = true) := by
  obtain ⟨j, hj⟩ := resolvePrevious_eq_setActWord s s.seqI.toNat rx
  cases h with
  | readRegDone ho hi => exact .inr ⟨ho, rfl⟩
  | bulkNext ho ht hi => rw [hj]; exact .inl ⟨rfl, rfl, rfl⟩
  | bulkToTrailing ho ht hi hr => rw [hj]; exact .inl ⟨rfl, rfl, rfl⟩
  | bulkDone ho ht hi hr => rw [hj]; exact .inl ⟨rfl, rfl, rfl⟩
  | _ => exact .inl ⟨rfl, rfl, rfl⟩

/-- An answer writes `RES_STATUS` where it ends a command in success (10 R31). -/
theorem ReplyEffect.resStatus_writers (h : ReplyEffect st rx s t) :
    t.resStatus = s.resStatus ∨ (t.fsm = .idle ∧ t.err = .none) := by
  obtain ⟨j, hj⟩ := resolvePrevious_eq_setActWord s s.seqI.toNat rx
  cases h with
  | readRegArmed ho hi => exact .inl rfl
  | bulkNext ho ht hi => rw [hj]; exact .inl rfl
  | bulkToTrailing ho ht hi hr => rw [hj]; exact .inl rfl
  | _ => exact .inr ⟨rfl, rfl⟩

/-- Settles O43: the writers of a command and of an OK answer; no other step writes a result register. -/
theorem writersOfTheResultRegisters : Obligations.WritersOfTheResultRegisters := by
  intro s t hr h
  obtain ⟨-, he⟩ := step_effect hr h
  cases he with
  | command i w d rest t hf hc hd he =>
    have hacc : s.accepts i := ⟨hf, w, d, rest, hc, hd⟩
    obtain ⟨-, -, hstatus, -, -, -⟩ := he.unwritten
    exact ⟨he.res_writers.imp_right fun hw => .inl ⟨i, hacc, hw⟩, he.resValid_kept,
      he.resAux_writers.imp_right fun hw => ⟨i, hacc, hw⟩, .inl hstatus⟩
  | replyOk st b0 b1 b2 b3 rest t hf hn he =>
    have hok : s.takesOk := ⟨hf, st, b0, b1, b2, b3, by rw [hn]; rfl⟩
    refine ⟨he.res_writers.imp_right fun hw => .inr ⟨hok, hw.1⟩, fun hv => ?_, .inl (by rw [he.frame]; rfl),
      he.resStatus_writers.imp_right fun hw => ⟨hok, hw⟩⟩
    obtain ⟨-, -, hkept⟩ | ⟨-, hset⟩ := he.res_writers
    · exact hkept.trans hv
    · exact hset
  | _ => exact ⟨.inl ⟨rfl, rfl, rfl⟩, id, .inl rfl, .inl rfl⟩

/-! ### The sequencer's registers -/

/-- Only the acceptance of a transaction command writes `CUR_OP`, `SEQ_I`, `SEQ_TRAIL` and `TXN_COUNT`, and it clears the
last three; a BULK of no action clears `TXN_COUNT` alone (42 R165, R166, R169, R174). -/
theorem CommandEffect.counter_writers (h : CommandEffect i s t) :
    (t.curOp = s.curOp ∧ t.seqI = s.seqI ∧ t.seqTrail = s.seqTrail ∧ t.txnCount = s.txnCount) ∨
      (isTransaction i = true ∧ (t.seqI = s.seqI ∨ t.seqI = 0#9) ∧ (t.seqTrail = s.seqTrail ∨ t.seqTrail = false) ∧
        t.txnCount = 0#9) := by
  cases h with
  | readReg a hi hr => subst hi; exact .inr ⟨rfl, .inr rfl, .inr rfl, rfl⟩
  | writeReg a v hi hw => subst hi; exact .inr ⟨rfl, .inr rfl, .inr rfl, rfl⟩
  | bulkNone hi => subst hi; exact .inr ⟨rfl, .inl rfl, .inl rfl, rfl⟩
  | bulk n hi hn hv => subst hi; exact .inr ⟨rfl, .inr rfl, .inr rfl, rfl⟩
  | _ => exact .inl ⟨rfl, rfl, rfl, rfl⟩

/-- `CUR_ADDR`, `CUR_DATA` and `SEQ_N` take the operands of the command that is accepted (10 R23 to R25). -/
theorem CommandEffect.operand_writers (h : CommandEffect i s t) :
    (t.curAddr = s.curAddr ∨ i = .readReg t.curAddr ∨ i = .writeReg t.curAddr t.curData) ∧
      (t.curData = s.curData ∨ i = .writeReg t.curAddr t.curData) ∧ (t.seqN = s.seqN ∨ i = .bulk t.seqN) := by
  cases h with
  | readReg a hi hr => exact ⟨.inr (.inl hi), .inl rfl, .inl rfl⟩
  | writeReg a v hi hw => exact ⟨.inr (.inr hi), .inr hi, .inl rfl⟩
  | bulk n hi hn hv => exact ⟨.inl rfl, .inl rfl, .inr hi⟩
  | _ => exact ⟨.inl rfl, .inl rfl, .inl rfl⟩

/-- A command that writes `ERR` leaves the block idle (10 R34). -/
theorem CommandEffect.err_writers (h : CommandEffect i s t) (hf : s.fsm = .idle) : t.err = s.err ∨ t.fsm = .idle := by
  cases h with
  | error e he => exact .inr rfl
  | readReg a hi hr => exact .inl rfl
  | writeReg a v hi hw => exact .inl rfl
  | bulk n hi hn hv => exact .inl rfl
  | _ => exact .inr hf

/-- An answer either leaves `SEQ_I` or makes it the next transaction's number (10 R27). -/
theorem ReplyEffect.seqI_writers (h : ReplyEffect st rx s t) :
    t.seqI = s.seqI ∨ t.seqI.toNat = s.seqI.toNat + 1 := by
  obtain ⟨j, hj⟩ := resolvePrevious_eq_setActWord s s.seqI.toNat rx
  cases h with
  | readRegArmed ho hi => exact .inr (by rw [hi]; rfl)
  | bulkNext ho ht hi => exact .inr (by bv_omega)
  | bulkToTrailing ho ht hi hr => exact .inr (by bv_omega)
  | bulkDone ho ht hi hr => rw [hj]; exact .inl rfl
  | _ => exact .inl rfl

/-- An answer sets `SEQ_TRAIL` where a BULK's last action is a read (42 R172). -/
theorem ReplyEffect.seqTrail_writers (h : ReplyEffect st rx s t) :
    t.seqTrail = s.seqTrail ∨ (t.seqTrail = true ∧ s.curOp = opBulk ∧ s.seqI.toNat + 1 = s.seqN.toNat ∧
      s.isReadAt s.seqI.toNat = true) := by
  obtain ⟨j, hj⟩ := resolvePrevious_eq_setActWord s s.seqI.toNat rx
  cases h with
  | bulkToTrailing ho ht hi hr => exact .inr ⟨rfl, ho, hi, hr⟩
  | bulkNext ho ht hi => rw [hj]; exact .inl rfl
  | bulkDone ho ht hi hr => rw [hj]; exact .inl rfl
  | _ => exact .inl rfl

/-- An answer that writes `ERR` leaves the block idle (10 R34). -/
theorem ReplyEffect.err_writers (h : ReplyEffect st rx s t) : t.err = s.err ∨ t.fsm = .idle := by
  obtain ⟨j, hj⟩ := resolvePrevious_eq_setActWord s s.seqI.toNat rx
  cases h with
  | readRegArmed ho hi => exact .inl rfl
  | bulkNext ho ht hi => rw [hj]; exact .inl rfl
  | bulkToTrailing ho ht hi hr => rw [hj]; exact .inl rfl
  | _ => exact .inr rfl

/-- Settles O44: the writers of a command and of an OK answer, register by register, and what an Issue step and a
transport error write. -/
theorem writersOfTheSequencerRegisters : Obligations.WritersOfTheSequencerRegisters := by
  intro s t hr h
  obtain ⟨-, he⟩ := step_effect hr h
  cases he with
  | noCommand hf => simp
  | illegal w d rest hf hc => simp
  | command i w d rest t hf hc hd he =>
    have hacc {x : Instr} (hx : i = x) : s.accepts x := ⟨hf, w, d, rest, hc, hx ▸ hd⟩
    obtain ⟨htx, htd, -, hterr, -, henv⟩ := he.unwritten
    have hwire : t.env.wire = s.env.wire := by rw [henv]; rfl
    obtain ⟨haddr, hdata, hn⟩ := he.operand_writers
    have haddr := haddr.imp_right (Or.imp hacc hacc)
    have hdata := hdata.imp_right hacc
    have hn := hn.imp_right hacc
    have herr := he.err_writers hf
    obtain ⟨hop, hi, htrail, hcount⟩ | ⟨htrans, hi, htrail, hcount⟩ := he.counter_writers
    · exact ⟨.inl hop, haddr, hdata, hn, .inl hi, .inl htrail, .inl ⟨htx, htd, hwire⟩, .inl hcount, .inl hterr, herr⟩
    · have hstart : ∃ i, s.accepts i ∧ isTransaction i = true := ⟨i, hacc rfl, htrans⟩
      exact ⟨.inr hstart, haddr, hdata, hn, hi.imp_right fun h0 => .inl ⟨h0, hstart⟩,
        htrail.imp_right fun h0 => .inl ⟨h0, hstart⟩, .inl ⟨htx, htd, hwire⟩, .inr (.inl ⟨hcount, hstart⟩), .inl hterr,
        herr⟩
  | issue f hf hw => simp [hf]
  | noReply hf hn => simp
  | replyErr e rest hf hn => simp [hf, hn]
  | replyOk st b0 b1 b2 b3 rest t hf hn he =>
    have hok : s.takesOk := ⟨hf, st, b0, b1, b2, b3, by rw [hn]; rfl⟩
    refine ⟨.inl ?_, .inl ?_, .inl ?_, .inl ?_, he.seqI_writers.imp_right fun hi => .inr ⟨hok, hi⟩,
      he.seqTrail_writers.imp_right fun ⟨h1, h2⟩ => .inr ⟨h1, hok, h2⟩, .inl ⟨?_, ?_, ?_⟩, .inl ?_, .inl ?_,
      he.err_writers⟩ <;> (rw [he.frame]; rfl)

/-! ### The action buffer -/

/-- Only ACTION_WRITE writes the buffer in its step, a whole entry (10 R38). -/
theorem CommandEffect.act_writers (h : CommandEffect i s t) :
    t.act = s.act ∨ ∃ k kind a v, i = .actionWrite k kind a v ∧
      t.act = s.act.set k.toNat { valid := true, kind := kind, tag := a, word := v } := by
  cases h with
  | action k kind a v hi hk => exact .inr ⟨k, kind, a, v, hi, rfl⟩
  | _ => exact .inl rfl

/-- `l` is the buffer with the received word in one entry: the read action before the one answered or, in the trailing
transaction, the last action (42 R171, R172). -/
def State.receives (s : State) (rx : Word) (l : List Action) : Prop :=
  ∃ j e, s.act[j]? = some e ∧ (s.seqTrail = false → j + 1 = s.seqI.toNat ∧ e.kind = .read) ∧
    (s.seqTrail = true → j + 1 = s.seqN.toNat) ∧ l = s.act.set j { e with word := rx }

theorem resolvePrevious_receives (ht : s.seqTrail = false) :
    (s.resolvePrevious s.seqI.toNat rx).act = s.act ∨ s.receives rx (s.resolvePrevious s.seqI.toNat rx).act :=
  (resolvePrevious_set s s.seqI.toNat rx).imp_right fun ⟨j, e, hj, he, hk, hset⟩ =>
    ⟨j, e, he, fun _ => ⟨hj, hk⟩, fun ht' => absurd (ht.symm.trans ht') Bool.false_ne_true, hset⟩

theorem setActWord_receives (ht : s.seqTrail = true) (hn : 1 ≤ s.seqN.toNat) :
    (s.setActWord (s.seqN.toNat - 1) rx).act = s.act ∨ s.receives rx (s.setActWord (s.seqN.toNat - 1) rx).act := by
  cases he : s.act[s.seqN.toNat - 1]? with
  | none => exact .inl (List.modify_eq_self (List.getElem?_eq_none_iff.1 he))
  | some e =>
    exact .inr ⟨_, e, he, fun ht' => absurd (ht'.symm.trans ht) Bool.false_ne_true, fun _ => by omega,
      setActWord_act_of he rx⟩

/-- Only a BULK's answer writes the buffer, the received word into one entry (42 R171, R172). -/
theorem ReplyEffect.act_writers (h : ReplyEffect st rx s t) :
    t.act = s.act ∨ (s.curOp = opBulk ∧ s.receives rx t.act) := by
  cases h with
  | bulkNext ho ht hi => exact (resolvePrevious_receives ht).imp_right fun hw => ⟨ho, hw⟩
  | bulkToTrailing ho ht hi hr => exact (resolvePrevious_receives ht).imp_right fun hw => ⟨ho, hw⟩
  | bulkDone ho ht hi hr => exact (resolvePrevious_receives ht).imp_right fun hw => ⟨ho, hw⟩
  | trailingDone ho ht hn => exact (setActWord_receives ht hn).imp_right fun hw => ⟨ho, hw⟩
  | _ => exact .inl rfl

/-- Settles O45: ACTION_WRITE is the only command that writes the buffer, a BULK's the only answer. -/
theorem writersOfTheActionBuffer : Obligations.WritersOfTheActionBuffer := by
  intro s t hr h
  obtain ⟨-, he⟩ := step_effect hr h
  cases he with
  | command i w d rest t hf hc hd he =>
    obtain hsame | ⟨k, kind, a, v, rfl, hset⟩ := he.act_writers
    · exact .inl hsame
    · exact .inr (.inl ⟨k, kind, a, v, ⟨hf, w, d, rest, hc, hd⟩, hset⟩)
  | replyOk st b0 b1 b2 b3 rest t hf hn he =>
    obtain hsame | ⟨ho, j, e, hword⟩ := he.act_writers
    · exact .inl hsame
    · exact .inr (.inr ⟨hf, ho, st, b0, b1, b2, b3, j, e, by rw [hn]; rfl, hword⟩)
  | _ => exact .inl rfl

end Sys2Proof.Machine
end

section
/-! The transaction stream (20_memory.md): which step hands a frame to the transport, and what a waiting block does. -/

namespace Sys2Proof.Machine

variable {s u t : State} {st : Byte} {rx : Word}

/-- After an OK answer the block is idle or about to issue, never waiting (42 R165, R166, R171, R172). -/
theorem ReplyEffect.fsm_ne_wait (h : ReplyEffect st rx s t) : t.fsm ≠ .wait := by
  cases h <;> simp

/-- A step from ISSUE issues FRAME(state) (42 R161). -/
theorem StepEffect.eq_issue (h : StepEffect s u t) (hf : s.fsm = .issue) : ∃ f, s.frame = some f ∧ t = u.issue f := by
  cases h with
  | issue f hi hw => exact ⟨f, hw, rfl⟩
  | _ => simp_all only [reduceCtorEq]  -- enabled in another state of `FSM`

/-- A step from any other state hands nothing to the transport (20 R74). -/
theorem StepEffect.wire_eq (h : StepEffect s u t) (hf : s.fsm ≠ .issue) : t.env.wire = u.env.wire := by
  cases h with
  | issue f hi hw => exact absurd hi hf
  | command i w d rest t hi hc hd he =>
    obtain ⟨-, -, -, -, -, henv⟩ := he.unwritten
    rw [henv]; rfl
  | replyOk st b0 b1 b2 b3 rest t hi hn he => rw [he.env_eq]; rfl
  | _ => rfl

/-- A waiting block stays in WAIT only where no answer is delivered (42 R161, 60 R215). -/
theorem StepEffect.eq_of_waiting (h : StepEffect s u t) (hf : s.fsm = .wait) (ht : t.fsm = .wait) : t = u := by
  cases h with
  | noReply hi hn => rfl
  | replyErr e rest hi hn => simp at ht
  | replyOk st b0 b1 b2 b3 rest t hi hn he => exact absurd ht he.fsm_ne_wait
  | _ => simp_all only [reduceCtorEq]  -- enabled in another state of `FSM`

/-- Settles O46: from ISSUE the step is the one that issues FRAME(state); from any other state no frame goes out, and a
block that goes on waiting has had no answer. -/
theorem transactionsGoOutOneAtATime : Obligations.TransactionsGoOutOneAtATime := by
  intro s t hr h
  obtain ⟨-, he⟩ := step_effect hr h
  by_cases hf : s.fsm = .issue
  · obtain ⟨f, hw, rfl⟩ := he.eq_issue hf
    exact ⟨.inr ⟨f, rfl, hf, rfl⟩, fun hwait => absurd (hf.symm.trans hwait) (by decide), fun _ => ⟨f, hw, rfl, rfl⟩⟩
  · have hwire : t.env.wire = s.env.wire := he.wire_eq hf
    exact ⟨.inl hwire, fun hwait => ⟨hwire, he.eq_of_waiting hwait⟩, fun hi => absurd hi hf⟩

end Sys2Proof.Machine
end

section
/-! The decoder and the encoder (30_encoding.md): when a word is a command (R88, R96), that the encoder's words decode to
what they encode (R81 to R84, R87, R90, R94, R95), and that the opcode table has one row for each command (R98). -/

namespace Sys2Proof.Machine

/-! ### Words that are commands -/

section
variable {w d : Word} {i : Instr}

/-- The opcodes that select no command are the reserved ones (30 R96). -/
theorem commandOf_eq_none_iff : commandOf w d = none ↔ cmdOp w ∈ [0x0#4, 0xE#4, 0xF#4] := by
  have hlt := (cmdOp w).isLt
  simp only [List.mem_cons, List.not_mem_nil, or_false, ← BitVec.toNat_inj, BitVec.toNat_ofNat]
  unfold commandOf
  split
  case h_14 => simp only [imp_false, true_iff] at *; omega
  all_goals simp [*]

/-- A word with clear reserved bits is the command of its opcode (30 R87, R90). -/
theorem decode_of_commandOf (h1 : cmdRsv1 w = 0) (h0 : cmdRsv0 w = 0) (hi : commandOf w d = some i) :
    decode (.cmd w d) = .ok i := by
  simp [decode, decodeCmd, h1, h0, hi]

/-- A word with clear reserved bits and a legal opcode decodes (30 R98). -/
theorem decode_of_legal (h : cmdRsv1 w = 0 ∧ cmdRsv0 w = 0 ∧ cmdOp w ∉ [0x0#4, 0xE#4, 0xF#4]) :
    ∃ i, commandOf w d = some i ∧ decode (.cmd w d) = .ok i := by
  obtain ⟨h1, h0, hop⟩ := h
  obtain ⟨i, hi⟩ := Option.ne_none_iff_exists'.1 (mt commandOf_eq_none_iff.1 hop)
  exact ⟨i, hi, decode_of_commandOf h1 h0 hi⟩

/-- A reserved bit or opcode is rejected (30 R88, R96). -/
theorem decode_of_illegal (h : ¬ (cmdRsv1 w = 0 ∧ cmdRsv0 w = 0 ∧ cmdOp w ∉ [0x0#4, 0xE#4, 0xF#4])) :
    ∃ r, decode (.cmd w d) = .error r := by
  rw [decode, decodeCmd]
  split
  · exact ⟨_, rfl⟩
  · split
    · exact ⟨_, rfl⟩
    · rename_i h1 h0
      have hnone : commandOf w d = none :=
        commandOf_eq_none_iff.2 (by_contra fun hop => h ⟨not_ne_iff.1 h1, not_ne_iff.1 h0, hop⟩)
      exact ⟨_, by rw [hnone]⟩

theorem runDecoded_of_error {c : Encoded} {r : Reject} (h : decode c = .error r) (s : State) :
    runDecoded c s = .next (s.raise .illegalCommand) := by
  simp [runDecoded, failWith, h]

/-- Settles O32: the word is rejected, and the pair has left the port. -/
theorem illegalCommandChangesOnlyErr : Obligations.IllegalCommandChangesOnlyErr := by
  intro s w d rest hs hr hc hbad
  obtain ⟨r, hrej⟩ := decode_of_illegal (d := d) (w := w) (by tauto)
  rw [step_of_command hs.noFault (noReset_of_nil hr) hs.idle hc, runDecoded_of_error hrej, ticked_eq_self s hr]
  rfl

end

/-! ### Decoding what was encoded -/

@[simp] theorem kindOfBit_bitOfKind (kind : ActKind) : kindOfBit (bitOfKind kind) = kind := by
  cases kind <;> rfl

/-- The word built from a command's fields has clear reserved bits, and decodes to the command of these fields. -/
theorem decode_cmdWord {op : BitVec 4} {kind : Bool} {idx addr : Byte} {d : Word} {i : Instr}
    (h : ∀ w, cmdOp w = op → cmdKind w = kind → cmdIdx w = idx → cmdAddr w = addr → commandOf w d = some i) :
    decode (.cmd (cmdWord op kind idx addr) d) = .ok i :=
  decode_of_commandOf (cmdRsv1_cmdWord ..) (cmdRsv0_cmdWord ..)
    (h _ (cmdOp_cmdWord ..) (cmdKind_cmdWord ..) (cmdIdx_cmdWord ..) (cmdAddr_cmdWord ..))

/-- An address byte with bit 7 clear is its own logical address (30 R81). -/
theorem readAbyte_eq_self {b : Byte} (h : b.getLsbD 7 = false) : readAbyte b = b := by
  revert b; decide

/-- A logical address has bit 7 clear (00 R5). -/
theorem getLsbD_of_lt {a : Byte} (h : a < 0x80#8) : a.getLsbD 7 = false := by
  revert a; decide

/-- A logical address is its own read address byte (30 R83). -/
theorem readAbyte_of_lt {a : Byte} (h : a < 0x80#8) : readAbyte a = a :=
  readAbyte_eq_self (getLsbD_of_lt h)

/-- The address byte of a write has bit 7 set (30 R81, R82). -/
theorem getLsbD_writeAbyte (a : Byte) : (writeAbyte a).getLsbD 7 = true := by
  revert a; decide

/-- The address byte of a write gives back the logical address (30 R82). -/
theorem readAbyte_writeAbyte {a : Byte} (h : a < 0x80#8) : readAbyte (writeAbyte a) = a := by
  revert a; decide

theorem decodeFrame_of_read {f : WireFrame} (h : f.abyte.getLsbD 7 = false) : decodeFrame f = .readFrame f.abyte := by
  simp only [decodeFrame, h, Bool.false_eq_true, if_false]

theorem decodeFrame_of_write {f : WireFrame} (h : f.abyte.getLsbD 7 = true) :
    decodeFrame f = .writeFrame (readAbyte f.abyte) f.word := by
  simp only [decodeFrame, h, if_true]

/-- Settles O1: a command's word gives back its opcode and its operands, a frame its direction, its address and its word. -/
theorem decodeOfEncodeIsIdentity : Obligations.DecodeOfEncodeIsIdentity := by
  intro i hwf
  cases i with
  | readFrame a =>
    have ha : a < 0x80#8 := of_decide_eq_true hwf
    rw [encode, readAbyte_of_lt ha, decode, decodeFrame_of_read (f := mkFrame a _) (getLsbD_of_lt ha), abyte_mkFrame]
  | writeFrame a v =>
    have ha : a < 0x80#8 := of_decide_eq_true hwf
    rw [encode, decode, decodeFrame_of_write (f := mkFrame (writeAbyte a) v) (getLsbD_writeAbyte a), abyte_mkFrame,
      word_mkFrame, readAbyte_writeAbyte ha]
  | _ => rw [encode]; exact decode_cmdWord fun w ho hk hi ha => by simp [commandOf, ho, hk, hi, ha]

/-- What a well-formed instruction is encoded to decodes to it. -/
theorem decode_of_encode {i : Instr} {c : Encoded} (h : encode i = c) (hwf : i.wf = true) : decode c = .ok i :=
  h ▸ decodeOfEncodeIsIdentity i hwf

/-- Settles O2: each word is the encoding of the instruction beside it. -/
theorem specWordsDecodeAsTheSpecSays : Obligations.SpecWordsDecodeAsTheSpecSays := by
  refine ⟨?_, ?_, ?_, ?_, ?_, ?_, ?_, ?_, ?_, ?_⟩ <;> exact decode_of_encode (by decide) (by decide)

/-! ### Fields that a command does not use -/

/-- Beyond the reserved bits decoding depends on the selected command only (30 R87, R90). -/
theorem decode_cmd_congr {w w' d d' : Word} (h1 : cmdRsv1 w = cmdRsv1 w') (h0 : cmdRsv0 w = cmdRsv0 w')
    (hc : commandOf w d = commandOf w' d') : decode (.cmd w d) = decode (.cmd w' d') := by
  simp [decode, decodeCmd, h1, h0, hc]

/-- Settles O4: the selected command is made of the fields it uses. -/
theorem unusedCommandFieldsAreIgnored : Obligations.UnusedCommandFieldsAreIgnored := by
  intro w w' d d' h1 h0 hop
  refine ⟨fun ho ha => ?_, fun ho ha => ?_, fun ho hi => ?_, fun ho => ?_, fun ho hk hk' => ?_, fun ho hk hk' ha => ?_,
    fun ho hk hk' ha => ?_, fun ho hk hk' ha => ?_, fun ho hk hi ha => ?_⟩ <;> refine decode_cmd_congr h1 h0 ?_
  · simp only [List.mem_cons, List.not_mem_nil, or_false] at ho
    obtain ho | ho | ho := ho <;> simp [commandOf, ← hop, ho, ha]
  · simp [commandOf, ← hop, ho, ha]
  · simp only [List.mem_cons, List.not_mem_nil, or_false] at ho
    obtain ho | ho | ho := ho <;> simp [commandOf, ← hop, ho, hi]
  · simp [commandOf, ← hop, ho]
  · simp [commandOf, ← hop, ho, hk, hk']
  · simp [commandOf, ← hop, ho, hk, hk', ha]
  · simp [commandOf, ← hop, ho, hk, hk', ha]
  · simp [commandOf, ← hop, ho, hk, hk', ha]
  · simp [commandOf, ← hop, ho, hk, hi, ha]

/-! ### The opcode table -/

section
variable {w w' d : Word} {i : Instr} {r : CommandRow}

/-- A row that fixes no `KIND` matches the words of its opcode with clear reserved bits. -/
theorem rowAnyKind_matches (m : String) (op : BitVec 4) :
    (rowAnyKind m op.toNat).matches w = true ↔ cmdRsv1 w = 0 ∧ cmdRsv0 w = 0 ∧ cmdOp w = op := by
  have hop := op.isLt
  simp only [CommandRow.matches, rowAnyKind, List.all_cons, List.all_nil, Bool.and_true, Bool.and_eq_true,
    decide_eq_true_eq, ← BitVec.toNat_inj, cmdRsv1, cmdRsv0, cmdOp, BitVec.extractLsb'_toNat, Nat.shiftRight_eq_div_pow,
    BitVec.ofNat_eq_ofNat, BitVec.toNat_ofNat]
  omega

/-- A row that fixes `KIND` matches the words of its opcode and `KIND` with clear reserved bits. -/
theorem rowKind_matches (m : String) (op : BitVec 4) (kind : Bool) :
    (rowKind m op.toNat kind.toNat).matches w = true ↔
      cmdRsv1 w = 0 ∧ cmdRsv0 w = 0 ∧ cmdOp w = op ∧ cmdKind w = kind := by
  have hop := op.isLt
  have hkind : cmdKind w = kind ↔ w.toNat / 2 ^ 24 % 2 = kind.toNat := by
    rw [cmdKind, BitVec.getLsbD, Nat.testBit_eq_decide_div_mod_eq]
    cases kind <;> simp
  simp only [CommandRow.matches, rowKind, List.all_cons, List.all_nil, Bool.and_true, Bool.and_eq_true,
    decide_eq_true_eq, ← BitVec.toNat_inj, cmdRsv1, cmdRsv0, cmdOp, BitVec.extractLsb'_toNat, Nat.shiftRight_eq_div_pow,
    BitVec.ofNat_eq_ofNat, BitVec.toNat_ofNat, hkind]
  have := kind.toNat_lt
  omega

/-- The two forms of a row of the opcode table (30 R90). -/
theorem commandRow_form : ∀ r ∈ commandRows, ∃ op : BitVec 4, op ∉ [0x0#4, 0xE#4, 0xF#4] ∧
    (r = rowAnyKind r.mnemonic op.toNat ∨ ∃ kind : Bool, r = rowKind r.mnemonic op.toNat kind.toNat) := by
  decide

/-- A word that matches a row is a command (30 R88, R90, R96). -/
theorem legal_of_matches (hr : r ∈ commandRows) (h : r.matches w = true) :
    cmdRsv1 w = 0 ∧ cmdRsv0 w = 0 ∧ cmdOp w ∉ [0x0#4, 0xE#4, 0xF#4] := by
  obtain ⟨op, hop, hform | ⟨kind, hform⟩⟩ := commandRow_form r hr <;> rw [hform] at h
  · obtain ⟨h1, h0, rfl⟩ := (rowAnyKind_matches _ _).1 h
    exact ⟨h1, h0, hop⟩
  · obtain ⟨h1, h0, rfl, -⟩ := (rowKind_matches _ _ _).1 h
    exact ⟨h1, h0, hop⟩

/-- Which rows a word matches depends on its reserved bits, its opcode and its `KIND`. -/
theorem matches_congr (hr : r ∈ commandRows) (h1 : cmdRsv1 w = cmdRsv1 w') (h0 : cmdRsv0 w = cmdRsv0 w')
    (hop : cmdOp w = cmdOp w') (hk : cmdKind w = cmdKind w') : r.matches w = r.matches w' := by
  obtain ⟨op, -, hform | ⟨kind, hform⟩⟩ := commandRow_form r hr <;> rw [hform, Bool.eq_iff_iff]
  · rw [rowAnyKind_matches, rowAnyKind_matches, h1, h0, hop]
  · rw [rowKind_matches, rowKind_matches, h1, h0, hop, hk]

/-- Which command a word selects depends on its opcode and its `KIND` (30 R90). -/
theorem mnemonic_commandOf_congr {d' : Word} (hop : cmdOp w = cmdOp w') (hk : cmdKind w = cmdKind w') :
    (commandOf w d).map (·.mnemonic) = (commandOf w' d').map (·.mnemonic) := by
  unfold commandOf
  rw [hop, hk]
  cases cmdKind w' <;> split <;> rfl

/-- The opcode table and the decoder select the same command for every opcode and `KIND` (30 R90). -/
theorem rows_of_op_kind : ∀ (op : BitVec 4) (kind : Bool),
    (commandRows.filter fun r => r.matches (cmdWord op kind 0#8 0#8)).map (·.mnemonic) =
      ((commandOf (cmdWord op kind 0#8 0#8) 0#32).map (·.mnemonic)).toList := by
  decide

/-- The rows a command word matches are the one of the command it selects. -/
theorem rows_of_command (h1 : cmdRsv1 w = 0) (h0 : cmdRsv0 w = 0) (hi : commandOf w d = some i) :
    (commandRows.filter fun r => r.matches w).map (·.mnemonic) = [i.mnemonic] := by
  have hrows : (commandRows.filter fun r => r.matches w) =
      commandRows.filter fun r => r.matches (cmdWord (cmdOp w) (cmdKind w) 0#8 0#8) :=
    List.filter_congr fun r hr => matches_congr hr (by simp [h1]) (by simp [h0]) (by simp) (by simp)
  rw [hrows, rows_of_op_kind, mnemonic_commandOf_congr (w' := w) (d' := d) (by simp) (by simp), hi]
  rfl

end

/-- Settles O3: a legal word is the command of its opcode, whose row alone matches; an illegal one is rejected and matches
no row; a frame's bit 7 decides. -/
theorem commandDecodingIsTotal : Obligations.CommandDecodingIsTotal := by
  refine ⟨fun w d => ⟨fun hlegal => ?_, fun hbad => ?_⟩, fun f => ⟨fun hf => ?_, fun hf => ?_⟩⟩
  · obtain ⟨i, hi, hdec⟩ := decode_of_legal (d := d) hlegal
    obtain ⟨h1, h0, -⟩ := hlegal
    exact ⟨i, hdec, rows_of_command h1 h0 hi⟩
  · obtain ⟨r, hrej⟩ := decode_of_illegal (d := d) hbad
    have hrows : (commandRows.filter fun r => r.matches w) = [] :=
      List.filter_eq_nil_iff.2 fun r hr hm => hbad (legal_of_matches hr hm)
    exact ⟨⟨r, hrej⟩, hrows, runDecoded_of_error hrej⟩
  · exact congrArg Except.ok (decodeFrame_of_write hf)
  · have hself : f.abyte &&& 0x7F#8 = f.abyte := readAbyte_eq_self hf
    rw [hself]
    exact congrArg Except.ok (decodeFrame_of_read hf)

end Sys2Proof.Machine
end

section
/-! The wire frames as the Issue step hands them over (30 R82, R83, 42 R161), and the pseudo-instruction ENCODE (30 R100). -/

namespace Sys2Proof.Machine

/-! ### Wire frames -/

section
variable {s : State} (h : s.internalFault = none) (hf : s.fsm = .issue)
include h hf

theorem exec_readFrame_of_issue (a : Byte) :
    exec (.readFrame a) s = .next (s.issue (mkFrame (readAbyte a) readFill)) := by
  rw [exec, execReadFrame, whenIssue_of_issue h hf]

theorem exec_writeFrame_of_issue (a : Byte) (v : Word) :
    exec (.writeFrame a v) s = .next (s.issue (mkFrame (writeAbyte a) v)) := by
  rw [exec, execWriteFrame, whenIssue_of_issue h hf]

end

/-- `TX_ABYTE` and `TX_DATA` are what the frame was made of (42 R161). -/
theorem issue_mkFrame (s : State) (b : Byte) (w : Word) : s.issue (mkFrame b w) =
    { s with txAbyte := b, txData := w, txnCount := s.txnCount + 1#9, fsm := .wait,
             env := { s.env with wire := s.env.wire ++ [mkFrame b w] } } := by
  rw [State.issue, word_mkFrame, abyte_mkFrame]

/-- Settles O29: the frame handed over is that of the logical address and `READ_FILL`, or of `a | 0x80` and the word. -/
theorem wireFramesAreIssued : Obligations.WireFramesAreIssued := by
  refine fun s a v h hf ha => ⟨?_, ?_⟩
  · rw [exec_readFrame_of_issue h hf, readAbyte_of_lt ha, issue_mkFrame]
    rfl
  · rw [exec_writeFrame_of_issue h hf, issue_mkFrame]
    rfl

/-! ### ENCODE -/

section
variable {s : State} {a : Byte} {k : Nat}

/-- A layout has at most 32 fields (00 R7 (6)). -/
theorem nf_le (c : Config) (k : Nat) : c.nf k ≤ 32 := by
  have h := c.checked
  simp only [configCheck, Catalog.wellFormed, Bool.and_eq_true, and_assoc] at h
  obtain ⟨-, -, -, -, hcount, -⟩ := h
  simp only [Catalog.fieldCountOk, List.all_eq_true, decide_eq_true_eq] at hcount
  unfold Config.nf Config.layout
  split
  · exact Nat.zero_le _
  · exact hcount _ (List.mem_of_getElem? ‹_›)

/-- A state that has had a map word written is as ready as before. -/
theorem ready_setMapWord_succeed (hs : s.Ready) (k : Nat) (w : Word) : (s.setMapWord k w).succeed.Ready where
  noFault := noFault_of_tags hs.noFault (setMapWord_tags s k w)
  idle := hs.idle

/-- The later write of a map word is the one that counts. -/
theorem setMapWord_succeed_setMapWord (s : State) (k : Nat) (v w : Word) :
    (s.setMapWord k v).succeed.setMapWord k w = (s.setMapWord k w).succeed := by
  simp only [State.setMapWord, State.succeed, List.modify_modify_eq, Function.comp_def]

theorem exec_mapSetState_of_slot (hs : s.Ready) (hk : s.cfg.slot a = some k) (v : Word) :
    exec (.mapSetState a v) s = .next (s.setMapWord k v).succeed := by
  rw [exec, execMapSetState, whenIdle_of_ready hs, withSlot_some hk, complete]

theorem exec_fieldSet_of_field (hs : s.Ready) (hk : s.cfg.slot a = some k) {f : Byte} {d : FieldDesc} {m : MapSlot}
    (hd : s.cfg.fmux k f.toNat = some d) (hm : s.map[k]? = some m) (v : Word) :
    exec (.fieldSet a f v) s = .next (s.setMapWord k (fieldSet d m.word v)).succeed := by
  rw [exec, execFieldSet, whenIdle_of_ready hs, withSlot_some hk, withField_some hd, withMapSlot_some hm, complete]

theorem execAll_cons_of_next {i : Instr} {t : State} (h : exec i s = .next t) (is : List Instr) :
    execAll (i :: is) s = execAll is t := by
  rw [execAll, h]

/-- A FIELD_SET of a slot just written sets the field in the word written (40 R118). -/
theorem exec_fieldSet_setMapWord (hs : s.Ready) (hk : s.cfg.slot a = some k) {f : Byte} {d : FieldDesc}
    (hd : s.cfg.fmux k f.toNat = some d) (w v : Word) :
    exec (.fieldSet a f v) (s.setMapWord k w).succeed = .next (s.setMapWord k (fieldSet d w v)).succeed := by
  obtain ⟨m, hm, -⟩ := mapSlot_of_slot hs hk
  have hm' : (s.setMapWord k w).succeed.map[k]? = some { m with word := w } := by simp [hm]
  rw [exec_fieldSet_of_field (ready_setMapWord_succeed hs k w) hk hd hm', setMapWord_succeed_setMapWord]
  rfl

/-- The FIELD_SETs of ENCODE, from field `j` on, set the remaining fields in the slot's word one after another. -/
theorem execAll_fieldSets (hs : s.Ready) (hk : s.cfg.slot a = some k) (vs : List Word) (j : Nat) (w : Word)
    (hlen : j + vs.length = s.cfg.nf k) :
    execAll (fieldSets a j vs) (s.setMapWord k w).succeed =
      .next (s.setMapWord k ((((s.cfg.layout k).drop j).zip vs).foldl (fun w p => fieldSet p.1 w p.2) w)).succeed := by
  induction vs generalizing j w with
  | nil => simp [fieldSets, execAll]
  | cons v vs ih =>
    rw [List.length_cons] at hlen
    have hj : j < (s.cfg.layout k).length := by rw [← Config.nf]; omega
    have hbyte : (BitVec.ofNat 8 j).toNat = j := by
      have := nf_le s.cfg k
      exact Nat.mod_eq_of_lt (by omega)
    have hd : s.cfg.fmux k (BitVec.ofNat 8 j).toNat = some (s.cfg.layout k)[j] := by
      rw [hbyte, Config.fmux, List.getElem?_eq_getElem hj]
    rw [fieldSets, execAll_cons_of_next (exec_fieldSet_setMapWord hs hk hd w v), ih (j + 1) _ (by omega),
      List.drop_eq_getElem_cons hj, List.zip_cons_cons, List.foldl_cons]

/-- Writing a map word keeps the slot's tag (10 R36). -/
theorem map_setMapWord_eq_set {m : MapSlot} (hm : s.map[k]? = some m) (w : Word) :
    (s.setMapWord k w).map = s.map.set k { tag := m.tag, word := w } := by
  rw [State.setMapWord, List.modify_eq_set_getElem?, hm]
  rfl

end

/-- Settles O60: MAP_SET_STATE clears the slot's word, and the FIELD_SETs write the fields into it as `encode` does. -/
theorem encodePseudoInstructionBuildsTheWord : Obligations.EncodePseudoInstructionBuildsTheWord := by
  intro s a k vs hs hk hlen
  obtain ⟨m, hm, -⟩ := mapSlot_of_slot hs hk
  refine ⟨(s.setMapWord k (encodeFields (s.cfg.layout k) vs)).succeed, m, hm, ?_, rfl, ?_⟩
  · rw [encodeInto, execAll_cons_of_next (exec_mapSetState_of_slot hs hk _), execAll_fieldSets hs hk vs 0 _ (by omega)]
    rfl
  · rw [← map_setMapWord_eq_set hm]
    rfl

end Sys2Proof.Machine
end

section
/-! The codec and its commands (40_codec.md): a field write read back bit by bit (R111, R112, R122), layouts encoded and
decoded (R113, R114, R120, R121), and the four field commands, which share their checks (R116 to R119). -/

namespace Sys2Proof.Machine

/-! ### One field -/

section
variable {d e : FieldDesc} {w v : Word} {i : Nat}

/-- 00 R7 (3), bound by bound. -/
theorem inWord_iff : d.inWord = true ↔ 1 ≤ d.width ∧ d.width ≤ 32 ∧ d.off ≤ 31 ∧ d.off + d.width ≤ 32 := by
  simp only [FieldDesc.inWord, Bool.and_eq_true, decide_eq_true_eq, and_assoc]

/-- 00 R7 (4): of two disjoint fields one lies below the other. -/
theorem disjoint_iff : d.disjoint e = true ↔ d.off + d.width ≤ e.off ∨ e.off + e.width ≤ d.off := by
  simp only [FieldDesc.disjoint, Bool.or_eq_true, decide_eq_true_eq]

theorem disjoint_comm : d.disjoint e = e.disjoint d := Bool.or_comm ..

theorem fieldGet_getLsbD_of_lt (hd : d.inWord = true) (hi : i < d.width) :
    (fieldGet d w).getLsbD i = w.getLsbD (d.off + i) := by
  obtain ⟨-, hwidth, -, -⟩ := inWord_iff.1 hd
  rw [fieldGet_getLsbD, decide_eq_true ⟨hi.trans_le hwidth, hi⟩, Bool.and_true]

theorem fieldGet_getLsbD_of_le (hi : d.width ≤ i) : (fieldGet d w).getLsbD i = false := by
  simp [fieldGet_getLsbD, hi]

/-- A field of 32 bits starts at bit 0 (00 R7 (3)). -/
theorem off_eq_zero_of_width (hd : d.inWord = true) (hwidth : d.width = 32) : d.off = 0 := by
  obtain ⟨-, -, -, hend⟩ := inWord_iff.1 hd
  omega

/-- A 32-bit field reads the whole word (40 R111). -/
theorem fieldGet_of_width (hoff : d.off = 0) (hwidth : d.width = 32) : fieldGet d w = w := by
  refine BitVec.eq_of_getLsbD_eq fun i hi => ?_
  rw [fieldGet_getLsbD]
  simp [hoff, hwidth, hi]

/-- A 32-bit field writes the whole word (40 R112). -/
theorem fieldSet_of_width (hoff : d.off = 0) (hwidth : d.width = 32) : fieldSet d w v = v := by
  refine BitVec.eq_of_getLsbD_eq fun i hi => ?_
  rw [fieldSet_getLsbD]
  simp [hoff, hwidth, hi]

/-- Writing zero clears the field (40 R112). -/
theorem fieldSet_zero : fieldSet d w 0#32 = w &&& ~~~(fmask d) := by
  simp [fieldSet]

/-- Only the value's low bits are stored (40 R112). -/
theorem fieldSet_and_mask : fieldSet d w (v &&& mask d.width) = fieldSet d w v := by
  rw [fieldSet, fieldSet, BitVec.and_assoc, BitVec.and_self]

/-- Settles O6: each bit of a read and of a write is known, and each corner case is one equation. -/
theorem fieldReadAndWriteBitByBit : Obligations.FieldReadAndWriteBitByBit := by
  refine fun d w v hd => ⟨⟨rfl, fun j hj => fieldGet_getLsbD_of_lt hd hj, fun j hj => fieldGet_getLsbD_of_le hj,
    fieldGet_of_width⟩, rfl, fun j hj => ?_, fun hwidth => fieldSet_of_width (off_eq_zero_of_width hd hwidth) hwidth,
    fun hv => hv ▸ fieldSet_zero, fieldSet_and_mask.symm⟩
  simp only [fieldSet_getLsbD, hj, true_and]

/-- Reading the field just written gives the value, truncated (40 R122). -/
theorem fieldGet_fieldSet_self (hd : d.inWord = true) : fieldGet d (fieldSet d w v) = v &&& mask d.width := by
  obtain ⟨-, -, -, hend⟩ := inWord_iff.1 hd
  refine BitVec.eq_of_getLsbD_eq fun i hi => ?_
  rw [BitVec.getLsbD_and, mask_getLsbD]
  by_cases hin : i < d.width
  · have hbit : d.off + i < 32 := by omega
    rw [fieldGet_getLsbD_of_lt hd hin, fieldSet_getLsbD]
    simp [hbit, hin, hi]
  · simp [fieldGet_getLsbD_of_le (Nat.not_lt.1 hin), hin]

/-- Reading a field disjoint from the one written gives what it gave before (40 R122). -/
theorem fieldGet_fieldSet_of_disjoint (h : d.disjoint e = true) : fieldGet e (fieldSet d w v) = fieldGet e w := by
  have hdis := disjoint_iff.1 h
  refine BitVec.eq_of_getLsbD_eq fun i _ => ?_
  by_cases hin : i < e.width
  · have hout : ¬ (e.off + i < 32 ∧ d.off ≤ e.off + i ∧ e.off + i < d.off + d.width) := by omega
    rw [fieldGet_getLsbD, fieldGet_getLsbD, fieldSet_getLsbD, if_neg hout]
  · rw [fieldGet_getLsbD_of_le (Nat.not_lt.1 hin), fieldGet_getLsbD_of_le (Nat.not_lt.1 hin)]

/-- Settles O7: a field write reads back, and a field disjoint from it does not see it. -/
theorem fieldReadAfterFieldWrite : Obligations.FieldReadAfterFieldWrite :=
  fun _ _ _ hd => ⟨fieldGet_fieldSet_self hd, fun _ _ h => fieldGet_fieldSet_of_disjoint h⟩

/-- A value that fits a field is stored whole (40 R112). -/
theorem and_mask_of_le {n : Nat} (hn : n ≤ 32) (hv : v ≤ mask n) : v &&& mask n = v := by
  have hpow : 2 ^ n ≤ 2 ^ 32 := Nat.pow_le_pow_right (by decide) hn
  have hpos : 0 < 2 ^ n := Nat.two_pow_pos n
  have hmask : (mask n).toNat = 2 ^ n - 1 := by
    rw [mask, BitVec.toNat_setWidth, BitVec.toNat_allOnes, Nat.mod_eq_of_lt (by omega)]
  rw [BitVec.le_def, hmask] at hv
  apply BitVec.eq_of_toNat_eq
  rw [BitVec.toNat_and, hmask, Nat.and_two_pow_sub_one_eq_mod, Nat.mod_eq_of_lt (by omega)]

/-- Copying a field of `w` onto bits of `w` adds the bits that the field covers. -/
theorem fieldSet_and_fieldGet (u : Word) : fieldSet d (w &&& u) (fieldGet d w) = w &&& (u ||| fmask d) := by
  refine BitVec.eq_of_getLsbD_eq fun i hi => ?_
  rw [fieldSet_getLsbD, BitVec.getLsbD_and, BitVec.getLsbD_and, BitVec.getLsbD_or, fmask_getLsbD]
  by_cases hin : i < 32 ∧ d.off ≤ i ∧ i < d.off + d.width
  · obtain ⟨h32, hoff, hend⟩ := hin
    have hget : (fieldGet d w).getLsbD (i - d.off) = w.getLsbD i := by
      rw [fieldGet_getLsbD, Nat.add_sub_cancel' hoff, decide_eq_true (by omega), Bool.and_true]
    simp [h32, hoff, hend, hget]
  · simp [hin]

end

/-! ### Layouts -/

/-- The fields of a layout lie inside the word (00 R7 (3)). -/
theorem inWord_of_mem_layout {c : Config} {k : Nat} {d : FieldDesc} (hd : d ∈ c.layout k) : d.inWord = true := by
  have h := c.checked
  simp only [configCheck, Catalog.wellFormed, Bool.and_eq_true, and_assoc] at h
  obtain ⟨-, hword, -⟩ := h
  simp only [Catalog.fieldsInWord, List.all_eq_true] at hword
  unfold Config.layout at hd
  split at hd
  · cases hd
  · exact hword _ (List.mem_of_getElem? ‹_›) d hd

/-- The fields of a layout are pairwise disjoint (00 R7 (4)). -/
theorem layout_pairwise_disjoint (c : Config) (k : Nat) : (c.layout k).Pairwise fun d e => d.disjoint e = true := by
  have h := c.checked
  simp only [configCheck, Catalog.wellFormed, Bool.and_eq_true, and_assoc] at h
  obtain ⟨-, -, hover, -⟩ := h
  simp only [Catalog.noOverlap, List.all_eq_true, decide_eq_true_eq] at hover
  unfold Config.layout
  split
  · exact .nil
  · exact hover _ (List.mem_of_getElem? ‹_›)

/-- `encode` from any word on: the fields of `l` are set in it one after another (40 R113). -/
def setFields (w : Word) (l : List FieldDesc) (vs : List Word) : Word :=
  (l.zip vs).foldl (fun w p => fieldSet p.1 w p.2) w

theorem encodeFields_eq_setFields (l : List FieldDesc) (vs : List Word) : encodeFields l vs = setFields 0#32 l vs := rfl

@[simp] theorem setFields_cons (w : Word) (d : FieldDesc) (l : List FieldDesc) (v : Word) (vs : List Word) :
    setFields w (d :: l) (v :: vs) = setFields (fieldSet d w v) l vs := rfl

@[simp] theorem decodeFields_cons (d : FieldDesc) (l : List FieldDesc) (w : Word) :
    decodeFields (d :: l) w = fieldGet d w :: decodeFields l w := rfl

/-- Setting fields leaves a field disjoint from all of them alone. -/
theorem fieldGet_setFields {d : FieldDesc} {l : List FieldDesc} (h : ∀ e ∈ l, d.disjoint e = true) (vs : List Word)
    (w : Word) : fieldGet d (setFields w l vs) = fieldGet d w := by
  induction l generalizing vs w with
  | nil => rfl
  | cons e l ih =>
    cases vs with
    | nil => rfl
    | cons v vs =>
      have hed : e.disjoint d = true := disjoint_comm.trans (h e List.mem_cons_self)
      rw [setFields_cons, ih fun e' he' => h e' (List.mem_cons_of_mem _ he'), fieldGet_fieldSet_of_disjoint hed]

/-- Fields that do not overlap read back what was set in them, truncated, whatever the word was before. -/
theorem decodeFields_setFields {l : List FieldDesc} (hword : ∀ d ∈ l, d.inWord = true)
    (hdis : l.Pairwise fun d e => d.disjoint e = true) {vs : List Word} (hlen : vs.length = l.length) (w : Word) :
    decodeFields l (setFields w l vs) = List.zipWith (fun d v => v &&& mask d.width) l vs := by
  induction l generalizing vs w with
  | nil => rfl
  | cons d l ih =>
    obtain ⟨hhead, htail⟩ := List.pairwise_cons.1 hdis
    obtain ⟨v, vs, rfl⟩ := List.exists_cons_of_length_eq_add_one hlen
    rw [setFields_cons, decodeFields_cons, List.zipWith_cons_cons, fieldGet_setFields hhead,
      fieldGet_fieldSet_self (hword d List.mem_cons_self),
      ih (fun e he => hword e (List.mem_cons_of_mem _ he)) htail (Nat.succ_injective hlen)]

/-- Values that fit their fields are not changed by truncation. -/
theorem zipWith_mask_of_fits {l : List FieldDesc} (hword : ∀ d ∈ l, d.inWord = true) {vs : List Word}
    (hlen : vs.length = l.length) (hfit : ∀ p ∈ l.zip vs, p.2 ≤ mask p.1.width) :
    List.zipWith (fun d v => v &&& mask d.width) l vs = vs := by
  induction l generalizing vs with
  | nil => exact (List.length_eq_zero_iff.1 hlen).symm
  | cons d l ih =>
    obtain ⟨v, vs, rfl⟩ := List.exists_cons_of_length_eq_add_one hlen
    obtain ⟨-, hwidth, -, -⟩ := inWord_iff.1 (hword d List.mem_cons_self)
    rw [List.zip_cons_cons] at hfit
    rw [List.zipWith_cons_cons, and_mask_of_le hwidth (hfit (d, v) List.mem_cons_self),
      ih (fun e he => hword e (List.mem_cons_of_mem _ he)) (Nat.succ_injective hlen)
        fun p hp => hfit p (List.mem_cons_of_mem _ hp)]

/-- Settles O8: a layout's fields lie in the word and do not overlap. -/
theorem codecRoundTrip : Obligations.CodecRoundTrip := by
  intro c k vs hlen
  have htrunc : decodeFields (c.layout k) (encodeFields (c.layout k) vs) =
      List.zipWith (fun d v => v &&& mask d.width) (c.layout k) vs :=
    decodeFields_setFields (fun _ => inWord_of_mem_layout) (layout_pairwise_disjoint c k) hlen 0#32
  exact ⟨htrunc, fun hfit => htrunc.trans (zipWith_mask_of_fits (fun _ => inWord_of_mem_layout) hlen hfit)⟩

/-- Setting the fields of `w` one after another, from the bits `u` of `w` on, collects the fields' masks. -/
theorem setFields_decodeFields (w : Word) (l : List FieldDesc) (u : Word) :
    setFields (w &&& u) l (decodeFields l w) = w &&& l.foldl (fun u d => u ||| fmask d) u := by
  induction l generalizing u with
  | nil => rfl
  | cons d l ih => rw [decodeFields_cons, setFields_cons, fieldSet_and_fieldGet, ih, List.foldl_cons]

/-- Settles O9: `encode` starts from no bit of the word and collects those of each field. -/
theorem encodeAfterDecodeKeepsFieldBits : Obligations.EncodeAfterDecodeKeepsFieldBits := by
  intro c k w
  rw [encodeFields_eq_setFields, ← BitVec.and_zero (x := w), setFields_decodeFields, fieldUnion]

/-! ### The field commands -/

section
variable {s : State} {a f : Byte} {k : Nat}

theorem fmux_of_le {c : Config} {j : Nat} (h : c.nf k ≤ j) : c.fmux k j = none := List.getElem?_eq_none h

theorem fmux_of_lt {c : Config} {j : Nat} (h : j < c.nf k) : ∃ d, c.fmux k j = some d :=
  ⟨_, List.getElem?_eq_getElem h⟩

theorem resHolds_iff : s.resHolds a = true ↔ s.resValid = true ∧ s.resTag = a := by
  simp [State.resHolds]

/-- A typed extraction fails on a missing state and on another tag (41 R136). -/
theorem resHolds_eq_false (h : s.resValid = false ∨ s.resTag ≠ a) : s.resHolds a = false := by
  rw [← Bool.not_eq_true, resHolds_iff]
  rintro ⟨hv, ht⟩
  exact h.elim (by simp [hv]) (absurd ht)

/-- The form of the four field commands: the address is checked, then the field, and `g` goes on with the field's
descriptor (40 R116 to R119). -/
def fieldCommand (a f : Byte) (g : State → Nat → FieldDesc → Result) (s : State) : Result :=
  whenIdle s fun s => withSlot a s fun k => withField k f s (g s k)

/-- The continuation of a command on a field of the transient state: the tag check, then the update `u` (40 R117,
R119). -/
def onResField (a : Byte) (u : State → FieldDesc → State) (s : State) (_k : Nat) (d : FieldDesc) : Result :=
  withRes a s (complete (u s d))

theorem exec_fieldGet_eq : exec (.fieldGet a f) s = fieldCommand a f
    (fun s k d => withMapSlot k s fun m => complete (s.setAux (fieldGet d m.word))) s := rfl

theorem exec_fieldSet_eq {v : Word} : exec (.fieldSet a f v) s = fieldCommand a f
    (fun s k d => withMapSlot k s fun m => complete (s.setMapWord k (fieldSet d m.word v))) s := rfl

theorem exec_fieldGetRes_eq : exec (.fieldGetRes a f) s = fieldCommand a f
    (onResField a fun s d => s.setAux (fieldGet d s.resWord)) s := rfl

theorem exec_fieldSetRes_eq {v : Word} : exec (.fieldSetRes a f v) s = fieldCommand a f
    (onResField a fun s d => s.setResWord (fieldSet d s.resWord v)) s := rfl

variable {g : State → Nat → FieldDesc → Result} {u : State → FieldDesc → State} (hs : s.Ready)
include hs

theorem fieldCommand_of_unknown (h : s.cfg.slot a = none) :
    fieldCommand a f g s = .next (s.raise .unknownAddress) := by
  rw [fieldCommand, whenIdle_of_ready hs, withSlot_none h]

theorem fieldCommand_of_badField (hk : s.cfg.slot a = some k) (hf : s.cfg.nf k ≤ f.toNat) :
    fieldCommand a f g s = .next (s.raise .badField) := by
  rw [fieldCommand, whenIdle_of_ready hs, withSlot_some hk, withField_none (fmux_of_le hf)]

theorem fieldCommand_of_field {d : FieldDesc} (hk : s.cfg.slot a = some k) (hd : s.cfg.fmux k f.toNat = some d) :
    fieldCommand a f g s = g s k d := by
  rw [fieldCommand, whenIdle_of_ready hs, withSlot_some hk, withField_some hd]

theorem fieldCommand_onResField_of_unexpected (hk : s.cfg.slot a = some k) (hf : f.toNat < s.cfg.nf k)
    (h : s.resValid = false ∨ s.resTag ≠ a) :
    fieldCommand a f (onResField a u) s = .next (s.raise .unexpectedAddress) := by
  obtain ⟨d, hd⟩ := fmux_of_lt hf
  rw [fieldCommand_of_field hs hk hd, onResField, withRes_not (resHolds_eq_false h)]

theorem fieldCommand_onResField_of_holds {d : FieldDesc} (hk : s.cfg.slot a = some k)
    (hd : s.cfg.fmux k f.toNat = some d) (hv : s.resValid = true) (ht : s.resTag = a) :
    fieldCommand a f (onResField a u) s = .next (u s d).succeed := by
  rw [fieldCommand_of_field hs hk hd, onResField, withRes_holds (resHolds_iff.2 ⟨hv, ht⟩), complete]

end

/-- Settles O11: the checks in their order, then the slot's word goes through `field_get`. -/
theorem fieldGetReadsTheMapSlot : Obligations.FieldGetReadsTheMapSlot := by
  refine ⟨fun w d ⟨h1, h0, ho⟩ hk => decode_of_commandOf h1 h0 (by simp [commandOf, ho, hk]),
    fun s a f hs => ⟨fieldCommand_of_unknown hs, fun k hk => ⟨fieldCommand_of_badField hs hk, fun hf => ?_⟩⟩⟩
  obtain ⟨d, hd⟩ := fmux_of_lt hf
  obtain ⟨m, hm, -⟩ := mapSlot_of_slot hs hk
  refine ⟨d, m, hd, hm, ?_⟩
  rw [exec_fieldGet_eq, fieldCommand_of_field hs hk hd, withMapSlot_some hm]
  rfl

/-- Settles O12: the checks in their order, the tag's last, then `RES_WORD` goes through `field_get`. -/
theorem fieldGetResReadsTheTransientState : Obligations.FieldGetResReadsTheTransientState := by
  refine ⟨fun w d ⟨h1, h0, ho⟩ hk => decode_of_commandOf h1 h0 (by simp [commandOf, ho, hk]),
    fun s a f hs => ⟨fieldCommand_of_unknown hs, fun k hk => ⟨fieldCommand_of_badField hs hk,
      fieldCommand_onResField_of_unexpected hs hk, fun hf hv ht => ?_⟩⟩⟩
  obtain ⟨d, hd⟩ := fmux_of_lt hf
  exact ⟨d, hd, exec_fieldGetRes_eq.trans (fieldCommand_onResField_of_holds hs hk hd hv ht)⟩

/-- Settles O13: the checks in their order, then the slot's word goes through `field_set` under the slot's own tag. -/
theorem fieldSetWritesTheMapSlot : Obligations.FieldSetWritesTheMapSlot := by
  refine ⟨fun w d ⟨h1, h0, ho⟩ hk => decode_of_commandOf h1 h0 (by simp [commandOf, ho, hk]),
    fun s a f v hs => ⟨fieldCommand_of_unknown hs, fun k hk => ⟨fieldCommand_of_badField hs hk, fun hf => ?_⟩⟩⟩
  obtain ⟨d, hd⟩ := fmux_of_lt hf
  obtain ⟨m, hm, -⟩ := mapSlot_of_slot hs hk
  refine ⟨d, m, hd, hm, ?_⟩
  rw [exec_fieldSet_of_field hs hk hd hm, ← map_setMapWord_eq_set hm]
  rfl

/-- Settles O14: the checks in their order, the tag's last, then `RES_WORD` goes through `field_set`. -/
theorem fieldSetResWritesTheTransientState : Obligations.FieldSetResWritesTheTransientState := by
  refine ⟨fun w d ⟨h1, h0, ho⟩ hk => decode_of_commandOf h1 h0 (by simp [commandOf, ho, hk]),
    fun s a f v hs => ⟨fieldCommand_of_unknown hs, fun k hk => ⟨fieldCommand_of_badField hs hk,
      fieldCommand_onResField_of_unexpected hs hk, fun hf hv ht => ?_⟩⟩⟩
  obtain ⟨d, hd⟩ := fmux_of_lt hf
  exact ⟨d, hd, exec_fieldSetRes_eq.trans (fieldCommand_onResField_of_holds hs hk hd hv ht)⟩

end Sys2Proof.Machine
end

section
/-! The catalog and the register map (41_catalog_map.md): the address decoder (R130, 60 R201), the INFO word and the
catalog queries (R131 to R133), and the commands on the transient state and on the map (R137 to R142, R144). -/

namespace Sys2Proof.Machine

/-! ### The address decoder -/

section
variable {s : State} {a : Byte} {k : Nat}

/-- The decoder selects the entry that has the address, and no other (41 R130). -/
theorem slot_eq_some_iff {c : Config} :
    c.slot a = some k ↔ ∃ e, c.catalog[k]? = some e ∧ e.addr.setWidth 8 = a := by
  refine ⟨fun h => ?_, fun ⟨e, he, ha⟩ => ha ▸ slot_addr he⟩
  obtain ⟨hk, ha, -⟩ := List.findIdx?_eq_some_iff_getElem.1 h
  exact ⟨_, List.getElem?_eq_getElem hk, eq_of_beq ha⟩

/-- A byte that is no logical address is unknown (20 R61, 41 R130). -/
theorem slot_eq_none_of_le {c : Config} (h : 0x80#8 ≤ a) : c.slot a = none := by
  have hle : 128 ≤ a.toNat := BitVec.le_def.1 h
  exact Option.not_isSome_iff_eq_none.1 fun hk => absurd (lt_of_slot_isSome hk) (Nat.not_lt.2 hle)

/-- The form of a command that decodes its address before all else: `g` goes on with the slot. -/
def addressCommand (a : Byte) (g : State → Nat → Result) (s : State) : Result :=
  whenIdle s fun s => withSlot a s (g s)

variable {g : State → Nat → Result} (hs : s.Ready)
include hs

theorem addressCommand_of_unknown (h : s.cfg.slot a = none) :
    addressCommand a g s = .next (s.raise .unknownAddress) := by
  rw [addressCommand, whenIdle_of_ready hs, withSlot_none h]

theorem addressCommand_of_slot (h : s.cfg.slot a = some k) : addressCommand a g s = g s k := by
  rw [addressCommand, whenIdle_of_ready hs, withSlot_some h]

theorem exec_addrInfo_of_unknown (h : s.cfg.slot a = none) :
    exec (.addrInfo a) s = .next (s.raise .unknownAddress) := by
  rw [exec, execAddrInfo, whenIdle_of_ready hs, h]
  rfl

/-- The index of an ACTION_WRITE is checked before its address (60 R209). -/
theorem exec_actionWrite_of_unknown (h : s.cfg.slot a = none) {x : Byte} (hx : x.toNat < s.cfg.maxActions)
    (kind : ActKind) (v : Word) : exec (.actionWrite x kind a v) s = .next (s.raise .unknownAddress) := by
  rw [exec, execActionWrite, whenIdle_of_ready hs, if_pos hx, withSlot_none h]

end

/-- Settles O10: of the commands with an address all but ADDR_INFO and ACTION_WRITE have the form `addressCommand`. -/
theorem addressDecoder : Obligations.AddressDecoder := by
  refine ⟨fun c a => ⟨fun k => slot_eq_some_iff, slot_eq_none_of_le⟩,
    fun s a x kind v hs h => ⟨?_, fun hx => exec_actionWrite_of_unknown hs h hx kind v⟩⟩
  have unknown (g : State → Nat → Result) : addressCommand a g s = .next (s.raise .unknownAddress) :=
    addressCommand_of_unknown hs h
  simp only [List.forall_mem_cons, List.not_mem_nil, false_imp_iff, implies_true, and_true]
  exact ⟨unknown _, unknown _, unknown _, unknown _, unknown _, unknown _, unknown _, unknown _, unknown _, unknown _,
    exec_addrInfo_of_unknown hs h⟩

/-! ### The INFO word and the catalog queries -/

section
variable {k : Nat} {e : CatalogEntry}

/-- Bit `i` of an INFO word, field by field from the low end (41 R131). -/
theorem infoWord_getLsbD {i : Nat} (h : i < 32) : (infoWord k e).getLsbD i =
    if i < 7 then e.addr.getLsbD i
    else if i = 8 then e.mode.readable
    else if i = 9 then e.mode.writable
    else if i < 16 then false
    else if i < 24 then (BitVec.ofNat 8 k).getLsbD (i - 16)
    else (BitVec.ofNat 8 e.fields.length).getLsbD (i - 24) := by
  have happend : (infoWord k e).getLsbD i =
      (BitVec.ofNat 8 e.fields.length ++ BitVec.ofNat 8 k ++ 0#6 ++ BitVec.ofBool e.mode.writable ++
        BitVec.ofBool e.mode.readable ++ 0#1 ++ e.addr : BitVec (8 + 8 + 6 + 1 + 1 + 1 + 7)).getLsbD i := rfl
  rw [happend]
  simp only [BitVec.getLsbD_append, BitVec.getLsbD_zero, BitVec.getLsbD_ofBool]
  interval_cases i <;> simp

/-- A part of a word is known when its bits are. -/
theorem extractLsb'_eq_of_getLsbD {w : Word} {j n : Nat} {x : BitVec n} (h : ∀ i < n, w.getLsbD (j + i) = x.getLsbD i) :
    w.extractLsb' j n = x :=
  BitVec.eq_of_getLsbD_eq fun i hi => by
    rw [BitVec.getLsbD_extractLsb', decide_eq_true hi, Bool.true_and, h i hi]

theorem extractLsb'_infoWord_addr : (infoWord k e).extractLsb' 0 7 = e.addr :=
  extractLsb'_eq_of_getLsbD fun i hi => by rw [Nat.zero_add, infoWord_getLsbD (by omega), if_pos hi]

theorem extractLsb'_infoWord_mode :
    (infoWord k e).extractLsb' 8 2 = BitVec.ofBool e.mode.writable ++ BitVec.ofBool e.mode.readable :=
  extractLsb'_eq_of_getLsbD fun i hi => by
    rw [infoWord_getLsbD (by omega)]
    interval_cases i <;> cases e.mode <;> rfl

theorem extractLsb'_infoWord_reserved : (infoWord k e).extractLsb' 10 6 = 0#6 :=
  extractLsb'_eq_of_getLsbD fun i hi => by
    rw [infoWord_getLsbD (by omega)]
    interval_cases i <;> rfl

theorem extractLsb'_infoWord_slot : (infoWord k e).extractLsb' 16 8 = BitVec.ofNat 8 k :=
  extractLsb'_eq_of_getLsbD fun i hi => by
    rw [infoWord_getLsbD (by omega)]
    interval_cases i <;> rfl

theorem extractLsb'_infoWord_nf : (infoWord k e).extractLsb' 24 8 = BitVec.ofNat 8 e.fields.length :=
  extractLsb'_eq_of_getLsbD fun i hi => by
    rw [infoWord_getLsbD (by omega)]
    interval_cases i <;> rfl

end

section
variable {c : Config} {a : Byte} {k : Nat} {e : CatalogEntry}

/-- A catalog has at most 128 entries (00 R7 (5)). -/
theorem catalog_length_le (c : Config) : c.catalog.length ≤ 128 := by
  have h := c.checked
  simp only [configCheck, Catalog.wellFormed, Bool.and_eq_true, and_assoc] at h
  obtain ⟨-, -, -, hsize, -⟩ := h
  simp only [Catalog.sizeOk, Bool.and_eq_true, decide_eq_true_eq] at hsize
  exact hsize.2

/-- A catalog is in ascending order of its addresses (00 R7 (7)). -/
theorem catalog_addr_lt {j : Nat} {e' : CatalogEntry} (hj : c.catalog[j]? = some e) (hk : c.catalog[k]? = some e')
    (hjk : j < k) : e.addr < e'.addr := by
  have h := c.checked
  simp only [configCheck, Catalog.wellFormed, Bool.and_eq_true, and_assoc] at h
  obtain ⟨-, -, -, -, -, hasc, -⟩ := h
  have hpair := List.pairwise_map.1 (of_decide_eq_true hasc)
  obtain ⟨hjlt, rfl⟩ := List.getElem?_eq_some_iff.1 hj
  obtain ⟨hklt, rfl⟩ := List.getElem?_eq_some_iff.1 hk
  exact BitVec.lt_def.2 (List.pairwise_iff_getElem.1 hpair j k hjlt hklt hjk)

theorem entryOf_of_slot (hk : c.slot a = some k) (he : c.catalog[k]? = some e) : c.entryOf a = some e := by
  rw [Config.entryOf, hk, Option.bind_some, he]

theorem readable_of_slot (hk : c.slot a = some k) (he : c.catalog[k]? = some e) : c.readable a = e.mode.readable := by
  rw [Config.readable, entryOf_of_slot hk he, Option.any_some]

theorem writable_of_slot (hk : c.slot a = some k) (he : c.catalog[k]? = some e) : c.writable a = e.mode.writable := by
  rw [Config.writable, entryOf_of_slot hk he, Option.any_some]

theorem nf_of_entry (he : c.catalog[k]? = some e) : c.nf k = e.fields.length := by
  simp only [Config.nf, Config.layout, he]

theorem info_of_entry (he : c.catalog[k]? = some e) : c.info k = some (infoWord k e) := by
  rw [Config.info, he, Option.map_some]

theorem info_of_le (h : c.nRegs ≤ k) : c.info k = none := by
  rw [Config.info, List.getElem?_eq_none h, Option.map_none]

/-- A slot number fits the 8 bits that INFO has for it (00 R7 (5), 41 R131). -/
theorem toNat_infoWord_slot (he : c.catalog[k]? = some e) : ((infoWord k e).extractLsb' 16 8).toNat = k := by
  obtain ⟨hk, -⟩ := List.getElem?_eq_some_iff.1 he
  have := catalog_length_le c
  rw [extractLsb'_infoWord_slot, BitVec.toNat_ofNat, Nat.mod_eq_of_lt (by omega)]

/-- A number of fields fits the 8 bits that INFO has for it (00 R7 (6), 41 R131). -/
theorem toNat_infoWord_nf (he : c.catalog[k]? = some e) : ((infoWord k e).extractLsb' 24 8).toNat = c.nf k := by
  have := nf_le c k
  rw [extractLsb'_infoWord_nf, ← nf_of_entry he, BitVec.toNat_ofNat, Nat.mod_eq_of_lt (by omega)]

variable {s : State} (hs : s.Ready)
include hs

theorem exec_addrInfo_of_slot (hk : s.cfg.slot a = some k) (he : s.cfg.catalog[k]? = some e) :
    exec (.addrInfo a) s = .next (s.setAux (infoWord k e)).succeed := by
  rw [exec, execAddrInfo, whenIdle_of_ready hs, hk, Option.bind_some, info_of_entry he]
  rfl

theorem exec_addrEnum_of_le {x : Byte} (h : s.cfg.nRegs ≤ x.toNat) :
    exec (.addrEnum x) s = .next (s.raise .badIndex) := by
  rw [exec, execAddrEnum, whenIdle_of_ready hs, info_of_le h]
  rfl

theorem exec_addrEnum_of_entry {x : Byte} (he : s.cfg.catalog[x.toNat]? = some e) :
    exec (.addrEnum x) s = .next (s.setAux (infoWord x.toNat e)).succeed := by
  rw [exec, execAddrEnum, whenIdle_of_ready hs, info_of_entry he]
  rfl

end

/-- Settles O15: the word is that of the entry the decoder selects, and each of its parts is known. -/
theorem addrInfoReportsTheEntry : Obligations.AddrInfoReportsTheEntry := by
  refine ⟨fun w d ⟨h1, h0, ho⟩ => decode_of_commandOf h1 h0 (by simp [commandOf, ho]),
    fun s a hs => ⟨exec_addrInfo_of_unknown hs, fun k hk => ?_⟩⟩
  obtain ⟨e, he, ha⟩ := slot_eq_some_iff.1 hk
  refine ⟨infoWord k e, exec_addrInfo_of_slot hs hk he, ?_, infoWord_getLsbD (by decide), ?_, ?_,
    extractLsb'_infoWord_reserved, toNat_infoWord_slot he, toNat_infoWord_nf he, fun e' he' => ?_⟩
  · rw [extractLsb'_infoWord_addr, ← ha]
    simp
  · rw [readable_of_slot hk he]
    exact infoWord_getLsbD (by decide)
  · rw [writable_of_slot hk he]
    exact infoWord_getLsbD (by decide)
  · obtain rfl : e = e' := Option.some.inj (he.symm.trans he')
    rw [extractLsb'_infoWord_mode]
    refine ⟨fun h => ?_, fun h => ?_, fun h => ?_⟩ <;> rw [h] <;> rfl

/-- Settles O16: INFO(k) is that of the entry at `k`, and the catalog's order is that of its addresses. -/
theorem addrEnumListsTheCatalog : Obligations.AddrEnumListsTheCatalog :=
  ⟨fun w d ⟨h1, h0, ho⟩ => decode_of_commandOf h1 h0 (by simp [commandOf, ho]),
    fun _ _ hs => ⟨exec_addrEnum_of_le hs, fun _ he => ⟨exec_addrEnum_of_entry hs he, extractLsb'_infoWord_addr⟩⟩,
    fun _ _ _ _ _ => catalog_addr_lt⟩

/-! ### The transient state -/

section
variable {s : State} {a : Byte}

/-- The form of a command on the transient state under the address `a`: the address is checked, then the tag, and `u`
updates the state (41 R137, R138). -/
def stateCommand (a : Byte) (u : State → State) (s : State) : Result :=
  addressCommand a (fun s _ => withRes a s (complete (u s))) s

theorem exec_stateCheck_eq : exec (.stateCheck a) s = stateCommand a id s := rfl

theorem exec_stateSet_eq {v : Word} : exec (.stateSet a v) s = stateCommand a (·.setResWord v) s := rfl

variable {u : State → State} (hs : s.Ready)
include hs

theorem stateCommand_of_unknown (h : s.cfg.slot a = none) : stateCommand a u s = .next (s.raise .unknownAddress) :=
  addressCommand_of_unknown hs h

theorem stateCommand_of_unexpected (hk : (s.cfg.slot a).isSome = true) (h : s.resValid = false ∨ s.resTag ≠ a) :
    stateCommand a u s = .next (s.raise .unexpectedAddress) := by
  obtain ⟨k, hk⟩ := Option.isSome_iff_exists.1 hk
  rw [stateCommand, addressCommand_of_slot hs hk, withRes_not (resHolds_eq_false h)]

theorem stateCommand_of_holds (hk : (s.cfg.slot a).isSome = true) (hv : s.resValid = true) (ht : s.resTag = a) :
    stateCommand a u s = .next (u s).succeed := by
  obtain ⟨k, hk⟩ := Option.isSome_iff_exists.1 hk
  rw [stateCommand, addressCommand_of_slot hs hk, withRes_holds (resHolds_iff.2 ⟨hv, ht⟩), complete]

end

/-- Settles O17: STATE_CHECK makes both checks and updates nothing. -/
theorem stateCheckComparesTheTag : Obligations.StateCheckComparesTheTag :=
  ⟨fun w d ⟨h1, h0, ho⟩ hk => decode_of_commandOf h1 h0 (by simp [commandOf, ho, hk]),
    fun s a hs => by
      rw [exec_stateCheck_eq]
      exact ⟨stateCommand_of_unknown hs, stateCommand_of_unexpected hs, stateCommand_of_holds hs⟩⟩

/-- Settles O18: STATE_SET makes both checks and updates `RES_WORD`. -/
theorem stateSetReplacesTheWord : Obligations.StateSetReplacesTheWord :=
  ⟨fun w d ⟨h1, h0, ho⟩ hk => decode_of_commandOf h1 h0 (by simp [commandOf, ho, hk]),
    fun s a v hs => by
      rw [exec_stateSet_eq]
      exact ⟨stateCommand_of_unknown hs, stateCommand_of_unexpected hs, stateCommand_of_holds hs⟩⟩

/-! ### The map -/

section
variable {s : State} {a : Byte} {k : Nat} (hs : s.Ready)
include hs

/-- A valid state's own tag is never UNKNOWN (41 R140, R146). -/
theorem slot_resTag (hv : s.resValid = true) : ∃ k, s.cfg.slot s.resTag = some k := by
  obtain ⟨-, -, -, hres, -⟩ := noFault_iff.1 hs.noFault
  exact Option.isSome_iff_exists.1 (hres hv)

theorem exec_mapStoreRes_of_invalid (hv : s.resValid = false) :
    exec .mapStoreRes s = .next (s.raise .unexpectedAddress) := by
  rw [exec, execMapStoreRes, whenIdle_of_ready hs, if_neg (by simp [hv]), failWith]

theorem exec_mapStoreRes_of_slot (hv : s.resValid = true) (hk : s.cfg.slot s.resTag = some k) :
    exec .mapStoreRes s = .next (s.setMapWord k s.resWord).succeed := by
  rw [exec, execMapStoreRes, whenIdle_of_ready hs, if_pos hv, hk]
  rfl

theorem exec_mapGet_of_slot (hk : s.cfg.slot a = some k) : ∃ m, s.map[k]? = some m ∧ m.tag.setWidth 8 = a ∧
    exec (.mapGet a) s = .next (s.setRes a m.word).succeed := by
  obtain ⟨m, hm, ha⟩ := mapSlot_of_slot hs hk
  refine ⟨m, hm, ha, ?_⟩
  rw [exec, execMapGet, whenIdle_of_ready hs, withSlot_some hk, withMapSlot_some hm, ha, complete]

theorem exec_mapDefault_of_ready : exec .mapDefault s = .next s.mapDefaults.succeed := by
  rw [exec, execMapDefault, whenIdle_of_ready hs, complete]

/-- With the catalog's tags the map of defaults is the map after Reset (41 R142, 70 R230). -/
theorem map_mapDefaults : s.mapDefaults.map = (State.resetOf s.cfg s.env).map := by
  obtain ⟨-, htags, -⟩ := internalFault_eq_none.1 hs.noFault
  calc s.mapDefaults.map
      = List.zipWith (fun tag e => MapSlot.mk tag e.default) (s.map.map (·.tag)) s.cfg.catalog :=
        by rw [List.zipWith_map_left, State.mapDefaults]
    _ = List.zipWith (fun tag e => MapSlot.mk tag e.default) (s.cfg.catalog.map (·.addr)) s.cfg.catalog := by rw [htags]
    _ = (State.resetOf s.cfg s.env).map := by rw [List.zipWith_map_left, List.zipWith_self, State.resetOf]

theorem ready_mapDefaults_succeed : s.mapDefaults.succeed.Ready where
  noFault := noFault_of_tags hs.noFault (mapDefaults_tags hs.noFault)
  idle := hs.idle

end

theorem ready_resetOf (c : Config) (env : Env) : (State.resetOf c env).Ready where
  noFault := resetOf_noFault c env
  idle := rfl

/-- Settles O19: `setMapWord` writes one slot and keeps its tag. -/
theorem mapSetStateWritesTheSlot : Obligations.MapSetStateWritesTheSlot := by
  refine ⟨fun w d ⟨h1, h0, ho⟩ hk => decode_of_commandOf h1 h0 (by simp [commandOf, ho, hk]),
    fun s a v hs => ⟨addressCommand_of_unknown hs, fun k hk => ?_⟩⟩
  obtain ⟨m, hm, -⟩ := mapSlot_of_slot hs hk
  refine ⟨m, hm, ?_⟩
  rw [exec_mapSetState_of_slot hs hk, ← map_setMapWord_eq_set hm]
  rfl

/-- Settles O20: a valid state's tag has a slot, and the map has this slot. -/
theorem mapStoreResUsesTheTag : Obligations.MapStoreResUsesTheTag := by
  refine ⟨fun w d ⟨h1, h0, ho⟩ hk => decode_of_commandOf h1 h0 (by simp [commandOf, ho, hk]),
    fun s hs => ⟨exec_mapStoreRes_of_invalid hs, fun hv => ?_⟩⟩
  obtain ⟨k, hk⟩ := slot_resTag hs hv
  obtain ⟨m, hm, -⟩ := mapSlot_of_slot hs hk
  refine ⟨k, m, hk, hm, ?_⟩
  rw [exec_mapStoreRes_of_slot hs hv hk, ← map_setMapWord_eq_set hm]
  rfl

/-- Settles O21: the slot that the decoder gives has the address as its tag. -/
theorem mapGetCopiesTheSlot : Obligations.MapGetCopiesTheSlot :=
  ⟨fun w d ⟨h1, h0, ho⟩ => decode_of_commandOf h1 h0 (by simp [commandOf, ho]),
    fun _ _ hs => ⟨addressCommand_of_unknown hs, fun _ => exec_mapGet_of_slot hs⟩⟩

/-- Settles O22: the map's tags are the catalog's addresses already. -/
theorem mapDefaultRestoresTheDefaults : Obligations.MapDefaultRestoresTheDefaults := by
  refine ⟨fun w d ⟨h1, h0, ho⟩ => decode_of_commandOf h1 h0 (by simp [commandOf, ho]),
    fun s hs => ⟨?_, fun k e he => ?_⟩⟩
  · rw [exec_mapDefault_of_ready hs, ← map_mapDefaults hs]
    rfl
  · rw [State.resetOf, List.getElem?_map, he, Option.map_some]

/-- Settles O23: an entry's position is the slot of its address, and the state is ready in both cases. -/
theorem mapTotality : Obligations.MapTotality := by
  refine fun c k e he => ⟨fun env => ?_, fun s hs hc => ?_⟩
  · obtain ⟨m, -, -, hget⟩ := exec_mapGet_of_slot (ready_resetOf c env) (slot_addr he)
    exact ⟨_, hget, rfl, rfl, rfl⟩
  · obtain ⟨m, -, -, hget⟩ := exec_mapGet_of_slot (ready_mapDefaults_succeed hs) (slot_addr (hc ▸ he))
    exact ⟨_, _, exec_mapDefault_of_ready hs, hget, rfl, rfl⟩

end Sys2Proof.Machine
end

section
/-! Acceptance of the protocol commands (42_protocol.md): READ_REG and WRITE_REG, which share the checks of address and
access mode (R165, R166, 60 R206), the action buffer's commands (R167, R168), and BULK (R169, R174). -/

namespace Sys2Proof.Machine

/-! ### Access modes -/

section
variable {c : Config} {a : Byte}

theorem accessMode_readable_iff {m : AccessMode} : m.readable = true ↔ m = .ro ∨ m = .rw := by
  cases m <;> simp [AccessMode.readable]

theorem accessMode_writable_iff {m : AccessMode} : m.writable = true ↔ m = .wo ∨ m = .rw := by
  cases m <;> simp [AccessMode.writable]

/-- The entry an address selects is the catalog's entry of that address (41 R130). -/
theorem entryOf_eq_some_iff {e : CatalogEntry} : c.entryOf a = some e ↔ e ∈ c.catalog ∧ e.addr.setWidth 8 = a := by
  refine ⟨fun h => ?_, fun ⟨hmem, ha⟩ => ?_⟩
  · obtain ⟨k, hk, he⟩ := Option.bind_eq_some_iff.1 h
    obtain ⟨e', he', ha⟩ := slot_eq_some_iff.1 hk
    obtain rfl : e' = e := Option.some.inj (he'.symm.trans he)
    exact ⟨List.mem_of_getElem? he, ha⟩
  · obtain ⟨k, hk⟩ := List.mem_iff_getElem?.1 hmem
    exact entryOf_of_slot (ha ▸ slot_addr hk) hk

theorem readable_iff : c.readable a = true ↔
    ∃ e ∈ c.catalog, e.addr.setWidth 8 = a ∧ (e.mode = .ro ∨ e.mode = .rw) := by
  simp only [Config.readable, Option.any_eq_true, entryOf_eq_some_iff, accessMode_readable_iff, and_assoc]

theorem writable_iff : c.writable a = true ↔
    ∃ e ∈ c.catalog, e.addr.setWidth 8 = a ∧ (e.mode = .wo ∨ e.mode = .rw) := by
  simp only [Config.writable, Option.any_eq_true, entryOf_eq_some_iff, accessMode_writable_iff, and_assoc]

end

/-! ### READ_REG and WRITE_REG -/

section
variable {s : State} {a : Byte}

/-- The form of a command that accesses one register: the address is checked, then the access mode, and `u` accepts the
command (42 R165, R166, 60 R209). -/
def accessCommand (a : Byte) (allowed : Config → Byte → Bool) (u : State → State) (s : State) : Result :=
  addressCommand a (fun s _ => if allowed s.cfg a then .next (u s) else failWith .accessDenied s) s

theorem exec_readReg_eq : exec (.readReg a) s =
    accessCommand a Config.readable (fun s => { s.accept opReadReg with curAddr := a }) s := rfl

theorem exec_writeReg_eq {v : Word} : exec (.writeReg a v) s =
    accessCommand a Config.writable (fun s => { s.accept opWriteReg with curAddr := a, curData := v }) s := rfl

variable {allowed : Config → Byte → Bool} {u : State → State} (hs : s.Ready)
include hs

theorem accessCommand_of_unknown (h : s.cfg.slot a = none) :
    accessCommand a allowed u s = .next (s.raise .unknownAddress) :=
  addressCommand_of_unknown hs h

theorem accessCommand_of_denied (hk : (s.cfg.slot a).isSome = true) (h : allowed s.cfg a = false) :
    accessCommand a allowed u s = .next (s.raise .accessDenied) := by
  obtain ⟨k, hk⟩ := Option.isSome_iff_exists.1 hk
  rw [accessCommand, addressCommand_of_slot hs hk, h]
  rfl

theorem accessCommand_of_allowed (hk : (s.cfg.slot a).isSome = true) (h : allowed s.cfg a = true) :
    accessCommand a allowed u s = .next (u s) := by
  obtain ⟨k, hk⟩ := Option.isSome_iff_exists.1 hk
  rw [accessCommand, addressCommand_of_slot hs hk, if_pos h]

theorem exec_readReg_of_readable (h : s.cfg.readable a = true) :
    exec (.readReg a) s = .next { s.accept opReadReg with curAddr := a } :=
  exec_readReg_eq.trans (accessCommand_of_allowed hs (slot_isSome_of_readable h) h)

theorem exec_writeReg_of_writable (h : s.cfg.writable a = true) (v : Word) :
    exec (.writeReg a v) s = .next { s.accept opWriteReg with curAddr := a, curData := v } :=
  exec_writeReg_eq.trans (accessCommand_of_allowed hs (slot_isSome_of_writable h) h)

end

/-- Settles O24: the address is checked, then `readable`, which is that of the entry with the address. -/
theorem readRegIsAccepted : Obligations.ReadRegIsAccepted :=
  ⟨fun w d ⟨h1, h0, ho⟩ => decode_of_commandOf h1 h0 (by simp [commandOf, ho]), fun _ _ => readable_iff,
    fun _ _ hs => ⟨fun h => exec_readReg_eq.trans (accessCommand_of_unknown hs h),
      fun hk h => exec_readReg_eq.trans (accessCommand_of_denied hs hk h), exec_readReg_of_readable hs⟩⟩

/-- Settles O25: the address is checked, then `writable`, which is that of the entry with the address. -/
theorem writeRegIsAccepted : Obligations.WriteRegIsAccepted :=
  ⟨fun w d ⟨h1, h0, ho⟩ => decode_of_commandOf h1 h0 (by simp [commandOf, ho]), fun _ _ => writable_iff,
    fun _ _ v hs => ⟨fun h => exec_writeReg_eq.trans (accessCommand_of_unknown hs h),
      fun hk h => exec_writeReg_eq.trans (accessCommand_of_denied hs hk h), fun h => exec_writeReg_of_writable hs h v⟩⟩

/-! ### The action buffer -/

section
variable {s : State} {k a : Byte} {kind : ActKind} {v : Word} {e : Action}

/-- The action buffer has `MAX_ACTIONS` entries (10 R38). -/
theorem act_length (h : s.internalFault = none) : s.act.length = s.cfg.maxActions := by
  obtain ⟨-, -, -, hlen⟩ := internalFault_eq_none.1 h
  exact hlen

variable (hs : s.Ready)
include hs

theorem exec_actionWrite_of_badIndex (hk : s.cfg.maxActions ≤ k.toNat) :
    exec (.actionWrite k kind a v) s = .next (s.raise .badIndex) := by
  rw [exec, execActionWrite, whenIdle_of_ready hs, if_neg (by omega), failWith]

theorem exec_actionWrite_of_slot (hk : k.toNat < s.cfg.maxActions) (ha : (s.cfg.slot a).isSome = true) :
    exec (.actionWrite k kind a v) s =
      .next (s.setAct k.toNat { valid := true, kind := kind, tag := a, word := v }).succeed := by
  obtain ⟨j, hj⟩ := Option.isSome_iff_exists.1 ha
  rw [exec, execActionWrite, whenIdle_of_ready hs, if_pos hk, withSlot_some hj, complete]

theorem exec_actionRead_of_none (hk : s.act[k.toNat]? = none) :
    exec (.actionRead k) s = .next (s.raise .badIndex) := by
  rw [exec, execActionRead, whenIdle_of_ready hs, hk]
  rfl

theorem exec_actionRead_of_empty (hk : s.act[k.toNat]? = some e) (hv : e.valid = false) :
    exec (.actionRead k) s = .next (s.raise .badIndex) := by
  simp only [exec, execActionRead, whenIdle_of_ready hs, hk, hv]
  rfl

theorem exec_actionRead_of_valid (hk : s.act[k.toNat]? = some e) (hv : e.valid = true) :
    exec (.actionRead k) s =
      .next ((s.setRes e.tag e.word).setAux ((BitVec.ofBool (bitOfKind e.kind)).setWidth 32)).succeed := by
  simp only [exec, execActionRead, whenIdle_of_ready hs, hk, hv]
  rfl

end

/-- `RES_AUX` after ACTION_READ is the action's kind as a number (42 R168, 10 R38). -/
theorem setWidth_bitOfKind (kind : ActKind) :
    (BitVec.ofBool (bitOfKind kind)).setWidth 32 = if kind = .read then 0#32 else 1#32 := by
  cases kind <;> decide

/-- Settles O26: the index is checked, then the address, then the entry is replaced. -/
theorem actionWriteFillsTheEntry : Obligations.ActionWriteFillsTheEntry := by
  refine ⟨fun w d ⟨h1, h0, ho⟩ => decode_of_commandOf h1 h0 (by simp [commandOf, ho, kindOfBit]),
    fun s k kind a v hs => ⟨exec_actionWrite_of_badIndex hs, fun hk h => exec_actionWrite_of_unknown hs h hk kind v,
      fun hk ha => ⟨_, exec_actionWrite_of_slot hs hk ha, rfl, ?_, fun j hj => ?_⟩⟩⟩
  · exact List.getElem?_set_self (by rwa [act_length hs.noFault])
  · exact List.getElem?_set_ne hj.symm

/-- Settles O27: an index past the buffer and an empty entry are both BAD_INDEX. -/
theorem actionReadCopiesTheEntry : Obligations.ActionReadCopiesTheEntry := by
  refine ⟨fun w d ⟨h1, h0, ho⟩ => decode_of_commandOf h1 h0 (by simp [commandOf, ho]), fun s k hs => ⟨?_, ?_⟩⟩
  · rintro (hk | ⟨e, he, hv⟩)
    · exact exec_actionRead_of_none hs (List.getElem?_eq_none (by rwa [act_length hs.noFault]))
    · exact exec_actionRead_of_empty hs he hv
  · intro e he hv
    rw [exec_actionRead_of_valid hs he hv, setWidth_bitOfKind]
    rfl

/-! ### BULK -/

section
variable {s : State} {n : Byte}

/-- The entries below `n` exist and hold actions (42 R169). -/
theorem actionsValid_iff (h : s.internalFault = none) {n : Nat} : s.actionsValid n = true ↔
    n ≤ s.cfg.maxActions ∧ ∀ j < n, ∃ e, s.act[j]? = some e ∧ e.valid = true := by
  simp only [State.actionsValid, Bool.and_eq_true, decide_eq_true_eq, List.all_eq_true]
  refine and_congr_right fun hn => ⟨fun hall j hj => ?_, fun hall e he => ?_⟩
  · have hlt : j < s.act.length := by rw [act_length h]; omega
    refine ⟨s.act[j], List.getElem?_eq_getElem hlt, hall _ (List.mem_of_getElem? (i := j) ?_)⟩
    rw [List.getElem?_take_of_lt hj, List.getElem?_eq_getElem hlt]
  · obtain ⟨j, hj⟩ := List.mem_iff_getElem?.1 he
    rw [List.getElem?_take, Option.ite_none_right_eq_some] at hj
    obtain ⟨hjn, hj⟩ := hj
    obtain ⟨e', he', hv⟩ := hall j hjn
    obtain rfl : e' = e := Option.some.inj (he'.symm.trans hj)
    exact hv

variable (hs : s.Ready)
include hs

theorem exec_bulk_of_badIndex (h : s.actionsValid n.toNat = false) :
    exec (.bulk n) s = .next (s.raise .badIndex) := by
  rw [exec, execBulk, whenIdle_of_ready hs, h]
  rfl

theorem exec_bulk_zero : exec (.bulk 0#8) s = .next { s with txnCount := 0#9 }.succeed := by
  have hvalid : s.actionsValid (0#8).toNat = true :=
    (actionsValid_iff hs.noFault).2 ⟨Nat.zero_le _, fun j hj => absurd hj (Nat.not_lt_zero j)⟩
  rw [exec, execBulk, whenIdle_of_ready hs, if_pos hvalid, if_pos rfl, complete]

theorem exec_bulk_of_valid (hn : 1 ≤ n.toNat) (h : s.actionsValid n.toNat = true) :
    exec (.bulk n) s = .next { s.accept opBulk with seqN := n } := by
  have hne : n ≠ 0#8 := by rintro rfl; exact absurd hn (by decide)
  rw [exec, execBulk, whenIdle_of_ready hs, if_pos h, if_neg hne]

end

/-- Settles O28: the count and the entries are what `actionsValid` checks. -/
theorem bulkIsAccepted : Obligations.BulkIsAccepted := by
  refine ⟨fun w d ⟨h1, h0, ho⟩ => decode_of_commandOf h1 h0 (by simp [commandOf, ho]),
    fun s n hs => ⟨fun hn => ?_, ?_, ?_, fun hn hle hall => ?_⟩⟩
  · refine exec_bulk_of_badIndex hs (Bool.eq_false_of_not_eq_true fun hv => ?_)
    exact absurd (le_maxActions_of_actionsValid hv) (by omega)
  · rintro ⟨j, e, hj, he, hempty⟩
    refine exec_bulk_of_badIndex hs (Bool.eq_false_of_not_eq_true fun hv => ?_)
    obtain ⟨-, hall⟩ := (actionsValid_iff hs.noFault).1 hv
    obtain ⟨e', he', hvalid⟩ := hall j hj
    obtain rfl : e' = e := Option.some.inj (he'.symm.trans he)
    exact absurd (hempty.symm.trans hvalid) Bool.false_ne_true
  · rintro rfl
    exact exec_bulk_zero hs
  · exact exec_bulk_of_valid hs hn ((actionsValid_iff hs.noFault).2 ⟨hle, hall⟩)

end Sys2Proof.Machine
end

section
/-! The Issue and Reply steps of the protocol engine (42_protocol.md): FRAME(state) (R162, R170), the step that hands it
over (R161), and the continuations of an answer (R163 to R166, R171, R172). -/

namespace Sys2Proof.Machine

variable {s : State} {st : Byte} {rx : Word} {e : Action}

/-! ### FRAME(state) -/

theorem frame_of_read (hk : e.kind = .read) : e.frame = mkFrame e.tag readFill := by
  rw [Action.frame, hk]

theorem frame_of_write (hk : e.kind = .write) : e.frame = mkFrame (e.tag ||| 0x80#8) e.word := by
  rw [Action.frame, hk]

theorem frame_of_readReg (ho : s.curOp = opReadReg) : s.frame = some (mkFrame s.curAddr readFill) := by
  rw [State.frame, if_pos ho]

theorem frame_of_writeReg (ho : s.curOp = opWriteReg) : s.frame = some (mkFrame (s.curAddr ||| 0x80#8) s.curData) := by
  rw [State.frame, ho, if_neg (by decide), if_pos rfl]

theorem frame_of_trailing (ho : s.curOp = opBulk) (ht : s.seqTrail = true) (hn : 1 ≤ s.seqN.toNat)
    (he : s.act[s.seqN.toNat - 1]? = some e) : s.frame = some (mkFrame e.tag readFill) := by
  obtain ⟨n, hn⟩ := Nat.exists_eq_add_of_le' hn
  rw [hn, Nat.add_sub_cancel] at he
  rw [State.frame, ho, if_neg (by decide), if_neg (by decide), if_pos rfl, if_pos ht, hn]
  simp only [he, Option.map_some]

theorem frame_of_action (ho : s.curOp = opBulk) (ht : s.seqTrail = false) (he : s.act[s.seqI.toNat]? = some e) :
    s.frame = some e.frame := by
  rw [State.frame, ho, if_neg (by decide), if_neg (by decide), if_pos rfl, ht, if_neg Bool.false_ne_true, he,
    Option.map_some]

/-- Settles O33: each clause is the branch of FRAME(state) for its command. -/
theorem frameOfTheState : Obligations.FrameOfTheState :=
  fun _ => ⟨frame_of_readReg, frame_of_writeReg, fun ho ht hn _ => frame_of_trailing ho ht hn, fun ho ht _ he =>
    ⟨fun hk => (frame_of_action ho ht he).trans (congrArg some (frame_of_write hk)),
      fun hk => (frame_of_action ho ht he).trans (congrArg some (frame_of_read hk))⟩⟩

/-! ### Steps from ISSUE and WAIT -/

/-- Without `Reset` an issuing block hands FRAME(state) over (42 R161). -/
theorem step_of_issue {f : WireFrame} (h : s.internalFault = none) (hr : s.noReset) (hf : s.fsm = .issue)
    (hw : s.frame = some f) : step s = .next (s.ticked.issue f) := by
  rw [step_of_frame h hr hf hw, runDecoded_frame s.ticked f h hf hw]

/-- Without `Reset` a waiting block takes the answer delivered (42 R161). -/
theorem step_of_reply {r : Reply} {rest : List Reply} (h : s.internalFault = none) (hr : s.noReset) (hf : s.fsm = .wait)
    (hd : s.env.replies = r :: rest) : step s = (s.ticked.withReplies rest).reply r := by
  rw [step_of_noReset hr, engineStep_wait (by simpa using h) (by simpa using hf)]
  simp [State.replyStep, hd]

/-- Without `Reset` a block with no answer delivered goes on waiting (60 R215). -/
theorem step_of_noReply (h : s.internalFault = none) (hr : s.noReset) (hf : s.fsm = .wait) (hd : s.env.replies = []) :
    step s = .next s.ticked := by
  rw [step_of_noReset hr, engineStep_wait (by simpa using h) (by simpa using hf)]
  simp [State.replyStep, hd]

/-- Settles O34: the step from ISSUE, with the reset line quiet. -/
theorem issueStepHandsTheFrameOver : Obligations.IssueStepHandsTheFrameOver := by
  intro s f h hr hf hw
  rw [step_of_issue h (noReset_of_nil hr) hf hw, ticked_eq_self s hr]
  rfl

/-! ### Answers of a READ_REG and a WRITE_REG -/

theorem replyOk_readReg_first (ho : s.curOp = opReadReg) (hi : s.seqI = 0#9) :
    s.replyOk st rx = .next { s with seqI := 1#9, fsm := .issue } := by
  rw [State.replyOk, if_pos ho, State.readRegReply, hi]
  rfl

theorem replyOk_readReg_second (ho : s.curOp = opReadReg) (hi : s.seqI = 1#9) : s.replyOk st rx =
    .next { (s.setStatus st).setRes s.curAddr rx with err := .none, fsm := .idle } := by
  rw [State.replyOk, if_pos ho, State.readRegReply, hi]
  rfl

theorem replyOk_writeReg (ho : s.curOp = opWriteReg) :
    s.replyOk st rx = .next { s.setStatus st with err := .none, fsm := .idle } := by
  rw [State.replyOk, ho, if_neg (by decide), if_pos rfl, State.writeRegReply]

/-- Settles O35: the step from WAIT is the continuation of the command in progress. -/
theorem singleAccessReplies : Obligations.SingleAccessReplies := by
  intro s st b0 b1 b2 b3 rest h hr hf hd
  rw [step_of_reply h (noReset_of_nil hr) hf hd, ticked_eq_self s hr, State.reply]
  exact ⟨fun ho hi => replyOk_readReg_first (s := s.withReplies rest) ho hi,
    fun ho hi => replyOk_readReg_second (s := s.withReplies rest) ho hi,
    fun ho => replyOk_writeReg (s := s.withReplies rest) ho⟩

/-! ### Answers of a BULK -/

@[simp] theorem resolvePrevious_seqN (i : Nat) : (s.resolvePrevious i rx).seqN = s.seqN := by
  rw [resolvePrevious_eq]

/-- Resolving the action before keeps the entry of the action answered (42 R171). -/
theorem resolvePrevious_act_self (i : Nat) : (s.resolvePrevious i rx).act[i]? = s.act[i]? := by
  rw [resolvePrevious_act]
  cases s.act[i]? <;> simp

section
variable (ho : s.curOp = opBulk)
include ho

theorem replyOk_bulk : s.replyOk st rx = s.bulkReply st rx := by
  rw [State.replyOk, ho, if_neg (by decide), if_neg (by decide), if_pos rfl]

theorem replyOk_trailing (ht : s.seqTrail = true) (hn : 1 ≤ s.seqN.toNat) (he : s.act[s.seqN.toNat - 1]? = some e) :
    s.replyOk st rx =
      .next { (s.setActWord (s.seqN.toNat - 1) rx).setStatus st with err := .none, fsm := .idle } := by
  obtain ⟨n, hn⟩ := Nat.exists_eq_add_of_le' hn
  rw [hn, Nat.add_sub_cancel] at he ⊢
  rw [replyOk_bulk ho, State.bulkReply, if_pos ht, hn]
  simp only [he]

variable (ht : s.seqTrail = false)
include ht

theorem replyOk_bulk_next (hi : s.seqI.toNat + 1 < s.seqN.toNat) : s.replyOk st rx =
    .next { s.resolvePrevious s.seqI.toNat rx with seqI := s.seqI + 1#9, fsm := .issue } := by
  rw [replyOk_bulk ho, State.bulkReply, ht, if_neg Bool.false_ne_true]
  exact if_pos hi

/-- The answer to the last action resolves the one before, then `bulkEnd` decides (42 R171, R172). -/
theorem replyOk_bulk_last (hi : s.seqI.toNat + 1 = s.seqN.toNat) :
    s.replyOk st rx = (s.resolvePrevious s.seqI.toNat rx).bulkEnd s.seqI.toNat st := by
  rw [replyOk_bulk ho, State.bulkReply, ht, if_neg Bool.false_ne_true]
  exact (if_neg (by omega)).trans (if_pos hi)

/-- A last action that is a read is read back by the trailing transaction (42 R172). -/
theorem replyOk_bulk_last_read (hi : s.seqI.toNat + 1 = s.seqN.toNat) (he : s.act[s.seqI.toNat]? = some e)
    (hk : e.kind = .read) : s.replyOk st rx =
      .next { s.resolvePrevious s.seqI.toNat rx with seqTrail := true, seqI := s.seqI + 1#9, fsm := .issue } := by
  have hx : s.seqN.setWidth 9 = s.seqI + 1#9 := by bv_omega
  rw [replyOk_bulk_last ho ht hi, State.bulkEnd, resolvePrevious_act_self, he, ← hx]
  simp only [hk, resolvePrevious_seqN]

/-- After a last action that is a write the BULK ends (42 R172). -/
theorem replyOk_bulk_last_write (hi : s.seqI.toNat + 1 = s.seqN.toNat) (he : s.act[s.seqI.toNat]? = some e)
    (hk : e.kind = .write) : s.replyOk st rx =
      .next { (s.resolvePrevious s.seqI.toNat rx).setStatus st with err := .none, fsm := .idle } := by
  rw [replyOk_bulk_last ho ht hi, State.bulkEnd, resolvePrevious_act_self, he]
  simp only [hk]

end

theorem isReadAt_of_entry {j : Nat} (he : s.act[j]? = some e) : s.isReadAt j = true ↔ e.kind = .read := by
  simp [State.isReadAt, he]

theorem kind_of_isReadAt {j : Nat} (he : s.act[j]? = some e) (hr : s.isReadAt j = false) : e.kind = .write := by
  cases hk : e.kind with
  | read => exact absurd (hr.symm.trans ((isReadAt_of_entry he).2 hk)) Bool.false_ne_true
  | write => rfl

/-- The actions of a BULK in progress are entries of the buffer (42 R169). -/
theorem State.Inv.entry (h : s.Inv) {j : Nat} (hj : j < s.seqN.toNat) : ∃ e, s.act[j]? = some e :=
  ⟨_, List.getElem?_eq_getElem (by have := h.seqN; rw [act_length h.noFault]; omega)⟩

/-- The trailing transaction of a BULK is not its first (42 R172). -/
theorem State.Inv.seqTrail_of_first (h : s.Inv) (hf : s.fsm ≠ .idle) (hi : s.seqI.toNat = 0) : s.seqTrail = false := by
  obtain ⟨-, -, -, ht, -⟩ | ⟨-, -, -, ht, -⟩ | ⟨-, hn, -, -, htrail, -⟩ := h.sequencer hf
  · exact ht
  · exact ht
  · refine Bool.eq_false_of_not_eq_true fun ht => ?_
    obtain ⟨hx, -⟩ := htrail ht
    omega

/-- Settles O36: each clause is the branch of the BULK's continuation for its place in the sequence. -/
theorem bulkReplies : Obligations.BulkReplies := by
  intro s st b0 b1 b2 b3 rest h hr hf ho hd
  have hu := h.withReplies rest
  have hstep : step s = (s.withReplies rest).replyOk st (unbe32 b0 b1 b2 b3) := by
    rw [step_of_reply h.noFault (noReset_of_nil hr) hf hd, ticked_eq_self s hr, State.reply]
  obtain ⟨hn, -⟩ := h.bulkInv (by simp [hf]) ho
  rw [hstep]
  refine ⟨fun ht => ⟨((s.withReplies rest).resolvePrevious s.seqI.toNat (unbe32 b0 b1 b2 b3)).act,
    resolvePrevious_length _ _ _, fun j e he => ?_, fun hi => ?_, fun hi hread => ?_, fun hi hread => ?_⟩, fun ht => ?_⟩
  · rw [resolvePrevious_act, State.withReplies_act, he, Option.map_some]
  · rw [replyOk_bulk_next (s := s.withReplies rest) ho ht hi, resolvePrevious_eq]
    rfl
  · obtain ⟨e, he⟩ := h.entry (j := s.seqI.toNat) (by omega)
    have hk := (isReadAt_of_entry he).1 hread
    rw [replyOk_bulk_last_read (s := s.withReplies rest) ho ht hi he hk, resolvePrevious_eq]
    rfl
  · obtain ⟨e, he⟩ := h.entry (j := s.seqI.toNat) (by omega)
    have hk := kind_of_isReadAt he hread
    rw [replyOk_bulk_last_write (s := s.withReplies rest) ho ht hi he hk, resolvePrevious_eq]
    rfl
  · obtain ⟨e, he⟩ := h.entry (j := s.seqN.toNat - 1) (by omega)
    refine ⟨e, he, ?_⟩
    rw [replyOk_trailing (s := s.withReplies rest) ho ht hn he, ← setActWord_act_of he]
    rfl

/-! ### The data of the first transaction -/

/-- The answer to a first transaction resolves nothing, and no register takes its data (42 R179). -/
theorem replyOk_first_congr (hi : s.seqI = 0#9) (ht : s.seqTrail = false) (rx rx' : Word) :
    s.replyOk st rx = s.replyOk st rx' := by
  have hread : s.readRegReply st rx = s.readRegReply st rx' := by rw [State.readRegReply, State.readRegReply, hi]; rfl
  have hbulk : s.bulkReply st rx = s.bulkReply st rx' := by
    simp [State.bulkReply, State.resolvePrevious, hi, ht]
  rw [State.replyOk, State.replyOk, hread, hbulk]

/-- The answer is taken as one word. -/
theorem reply_okReply : s.reply (okReply st rx) = s.replyOk st rx := by
  rw [okReply, State.reply, unbe32_be32]

/-- Settles O57: in its first transaction no command is in a trailing one. -/
theorem firstTransactionsDataIsNeverUsed : Obligations.FirstTransactionsDataIsNeverUsed := by
  intro s st rx rx' rest h hr hf hi
  have ht : s.seqTrail = false := h.seqTrail_of_first (by simp [hf]) (by rw [hi]; rfl)
  have hstep (rx : Word) : step (s.withReplies (okReply st rx :: rest)) =
      ((s.withReplies (okReply st rx :: rest)).ticked.withReplies rest).replyOk st rx := by
    rw [step_of_reply (s := s.withReplies (okReply st rx :: rest)) h.noFault hr hf rfl, reply_okReply]
  rw [hstep, hstep]
  exact replyOk_first_congr (s := s.ticked.withReplies rest) hi ht rx rx'

end Sys2Proof.Machine
end

section
/-! Transport errors (42_protocol.md R164, R203) and the payloads they carry, which no step interprets (00_scope.md
R10): each part of a step commutes with the exchange of all payloads, latched or still to come. -/

namespace Sys2Proof.Machine

variable {s : State} {f : TErr → TErr}

/-! ### The checks of a command commute with the exchange -/

theorem ite_mapTErrOf {c : Prop} [Decidable c] {x x' y y' : Result} (hx : x' = mapTErrOf f x)
    (hy : y' = mapTErrOf f y) : (if c then x' else y') = mapTErrOf f (if c then x else y) := by
  split
  · exact hx
  · exact hy

theorem whenIdle_mapTErr {g : State → Result} (hg : g (s.mapTErr f) = mapTErrOf f (g s)) :
    whenIdle (s.mapTErr f) g = mapTErrOf f (whenIdle s g) := by
  unfold whenIdle
  rw [mapTErr_internalFault]
  split
  · rfl
  · exact ite_mapTErrOf hg rfl

theorem whenIssue_mapTErr {g : State → Result} (hg : g (s.mapTErr f) = mapTErrOf f (g s)) :
    whenIssue (s.mapTErr f) g = mapTErrOf f (whenIssue s g) := by
  unfold whenIssue
  rw [mapTErr_internalFault]
  split
  · rfl
  · exact ite_mapTErrOf hg rfl

theorem withSlot_mapTErr {a : Byte} {g g' : Nat → Result} (hg : ∀ k, g' k = mapTErrOf f (g k)) :
    withSlot a (s.mapTErr f) g' = mapTErrOf f (withSlot a s g) := by
  unfold withSlot
  rw [mapTErr_cfg]
  split
  · rfl
  · exact hg _

theorem withField_mapTErr {k : Nat} {x : Byte} {g g' : FieldDesc → Result} (hg : ∀ d, g' d = mapTErrOf f (g d)) :
    withField k x (s.mapTErr f) g' = mapTErrOf f (withField k x s g) := by
  unfold withField
  rw [mapTErr_cfg]
  split
  · rfl
  · exact hg _

theorem withRes_mapTErr {a : Byte} {x x' : Result} (hx : x' = mapTErrOf f x) :
    withRes a (s.mapTErr f) x' = mapTErrOf f (withRes a s x) := by
  unfold withRes
  rw [mapTErr_resHolds]
  exact ite_mapTErrOf hx rfl

theorem withMapSlot_mapTErr {k : Nat} {g g' : MapSlot → Result} (hg : ∀ m, g' m = mapTErrOf f (g m)) :
    withMapSlot k (s.mapTErr f) g' = mapTErrOf f (withMapSlot k s g) := by
  unfold withMapSlot
  rw [mapTErr_map]
  split
  · rfl
  · exact hg _

/-! ### So does every instruction -/

theorem exec_mapTErr (i : Instr) : exec i (s.mapTErr f) = mapTErrOf f (exec i s) := by
  cases i <;> simp only [exec, execReadReg, execWriteReg, execBulk, execActionWrite, execActionRead, execMapSetState,
    execMapStoreRes, execMapGet, execMapDefault, execStateCheck, execStateSet, execFieldGet, execFieldGetRes,
    execFieldSet, execFieldSetRes, execAddrInfo, execAddrEnum, execReadFrame, execWriteFrame]
  case readReg a => exact whenIdle_mapTErr (withSlot_mapTErr fun _ => ite_mapTErrOf rfl rfl)
  case writeReg a v => exact whenIdle_mapTErr (withSlot_mapTErr fun _ => ite_mapTErrOf rfl rfl)
  case bulk n => exact whenIdle_mapTErr (ite_mapTErrOf (ite_mapTErrOf rfl rfl) rfl)
  case actionWrite k kind a v => exact whenIdle_mapTErr (ite_mapTErrOf (withSlot_mapTErr fun _ => rfl) rfl)
  case actionRead k =>
    refine whenIdle_mapTErr ?_
    dsimp only [mapTErr_act]
    split
    · rfl
    · exact ite_mapTErrOf rfl rfl
  case mapSetState a v => exact whenIdle_mapTErr (withSlot_mapTErr fun _ => rfl)
  case mapStoreRes =>
    refine whenIdle_mapTErr (ite_mapTErrOf ?_ rfl)
    dsimp only [mapTErr_cfg, mapTErr_resTag]
    split <;> rfl
  case mapGet a => exact whenIdle_mapTErr (withSlot_mapTErr fun _ => withMapSlot_mapTErr fun _ => rfl)
  case mapDefault => exact whenIdle_mapTErr rfl
  case stateCheck a => exact whenIdle_mapTErr (withSlot_mapTErr fun _ => withRes_mapTErr rfl)
  case stateSet a v => exact whenIdle_mapTErr (withSlot_mapTErr fun _ => withRes_mapTErr rfl)
  case fieldGet a x =>
    exact whenIdle_mapTErr (withSlot_mapTErr fun _ => withField_mapTErr fun _ => withMapSlot_mapTErr fun _ => rfl)
  case fieldGetRes a x =>
    exact whenIdle_mapTErr (withSlot_mapTErr fun _ => withField_mapTErr fun _ => withRes_mapTErr rfl)
  case fieldSet a x v =>
    exact whenIdle_mapTErr (withSlot_mapTErr fun _ => withField_mapTErr fun _ => withMapSlot_mapTErr fun _ => rfl)
  case fieldSetRes a x v =>
    exact whenIdle_mapTErr (withSlot_mapTErr fun _ => withField_mapTErr fun _ => withRes_mapTErr rfl)
  case addrInfo a =>
    refine whenIdle_mapTErr ?_
    dsimp only [mapTErr_cfg]
    split <;> rfl
  case addrEnum k =>
    refine whenIdle_mapTErr ?_
    dsimp only [mapTErr_cfg]
    split <;> rfl
  case readFrame a => exact whenIssue_mapTErr rfl
  case writeFrame a v => exact whenIssue_mapTErr rfl

theorem runDecoded_mapTErr (c : Encoded) : runDecoded c (s.mapTErr f) = mapTErrOf f (runDecoded c s) := by
  unfold runDecoded
  split
  · exact exec_mapTErr _
  · rfl

/-! ### And every answer -/

theorem resolvePrevious_mapTErr (i : Nat) (rx : Word) :
    (s.mapTErr f).resolvePrevious i rx = (s.resolvePrevious i rx).mapTErr f := by
  unfold State.resolvePrevious
  rw [mapTErr_act]
  split
  · rfl
  · split
    · split <;> rfl
    · rfl

theorem bulkEnd_mapTErr (j : Nat) (st : Byte) : (s.mapTErr f).bulkEnd j st = mapTErrOf f (s.bulkEnd j st) := by
  unfold State.bulkEnd
  rw [mapTErr_act]
  split
  · rfl
  · split <;> rfl

theorem readRegReply_mapTErr (st : Byte) (rx : Word) :
    (s.mapTErr f).readRegReply st rx = mapTErrOf f (s.readRegReply st rx) := by
  unfold State.readRegReply
  rw [mapTErr_seqI]
  split <;> rfl

theorem bulkReply_mapTErr (st : Byte) (rx : Word) :
    (s.mapTErr f).bulkReply st rx = mapTErrOf f (s.bulkReply st rx) := by
  refine ite_mapTErrOf ?_ (ite_mapTErrOf ?_ (ite_mapTErrOf ?_ rfl))
  · rw [mapTErr_seqN]
    split
    · rfl
    · rw [mapTErr_act]
      split <;> rfl
  · rw [mapTErr_seqI, resolvePrevious_mapTErr]
    rfl
  · rw [mapTErr_seqI, resolvePrevious_mapTErr, bulkEnd_mapTErr]

theorem reply_mapTErr (r : Reply) : (s.mapTErr f).reply (r.mapTErr f) = mapTErrOf f (s.reply r) := by
  cases r with
  | ok st b0 b1 b2 b3 =>
    exact ite_mapTErrOf (readRegReply_mapTErr _ _) (ite_mapTErrOf rfl (ite_mapTErrOf (bulkReply_mapTErr _ _) rfl))
  | err e => rfl

/-! ### And every step -/

theorem hostCmdStep_mapTErr : (s.mapTErr f).hostCmdStep = mapTErrOf f s.hostCmdStep := by
  unfold State.hostCmdStep
  simp only [mapTErr_env]
  split
  · rfl
  · rename_i w d rest hc
    exact runDecoded_mapTErr (s := s.withCmds rest) _

theorem issueStep_mapTErr : (s.mapTErr f).issueStep = mapTErrOf f s.issueStep := by
  unfold State.issueStep
  rw [mapTErr_frame]
  split
  · rfl
  · exact runDecoded_mapTErr _

theorem replyStep_mapTErr : (s.mapTErr f).replyStep = mapTErrOf f s.replyStep := by
  unfold State.replyStep
  rw [mapTErr_env]
  cases s.env.replies with
  | nil => rfl
  | cons r rest => exact reply_mapTErr (s := s.withReplies rest) r

theorem engineStep_mapTErr : (s.mapTErr f).engineStep = mapTErrOf f s.engineStep := by
  unfold State.engineStep
  rw [mapTErr_internalFault, mapTErr_fsm]
  split
  · rfl
  · split
    · exact hostCmdStep_mapTErr
    · exact issueStep_mapTErr
    · exact replyStep_mapTErr
    · rfl

theorem step_mapTErr : step (s.mapTErr f) = mapTErrOf f (step s) := by
  unfold step State.nextStep
  simp only [mapTErr_env]
  split
  · exact engineStep_mapTErr
  · rename_i rest hl
    exact engineStep_mapTErr (s := s.withResetLine rest)
  · rfl

/-- Settles O37: the answer `ERR(e)` is taken by `raiseTransport`, and every part of a step copies payloads only. -/
theorem transportErrorEndsTheCommand : Obligations.TransportErrorEndsTheCommand := by
  refine ⟨fun s e rest h hr hf hd => ?_, fun s f => step_mapTErr⟩
  rw [step_of_reply h (noReset_of_nil hr) hf hd, ticked_eq_self s hr]
  rfl

end Sys2Proof.Machine
end

section
/-! The states of a BULK's actions over its steps (42_protocol.md R175, R176): what they are where the invariant holds,
and what an Issue step, an answer and a transport error make of them. -/

namespace Sys2Proof.Machine

variable {s t : State} {st : Byte} {rx : Word} {j : Nat}

/-! ### The states under the invariant -/

section
variable (h : s.Inv) (ho : s.curOp = opBulk)
include h ho

/-- Before transaction `SEQ_I` is issued, the action before it is SENT. -/
theorem State.Inv.phase_of_issue (hf : s.fsm = .issue) (hj : j < s.seqN.toNat) : s.phase j =
    some (if s.seqI.toNat ≤ j then .pending else if s.seqI.toNat = j + 1 then .sent else .resolved) := by
  have htrail := h.seqTrail_iff (by simp [hf]) ho
  rw [Machine.phase_of_issue ho hf hj]
  congr 1
  cases ht : s.seqTrail
  · simp
  · have hi := htrail.1 ht
    have hgt : ¬ s.seqI.toNat ≤ j := by omega
    have hlast : s.seqI.toNat = j + 1 ∨ j + 1 = s.seqN.toNat ∧ s.isReadAt j = true ↔ s.seqI.toNat = j + 1 := by omega
    simp [hgt, hlast]

/-- While the answer to transaction `SEQ_I` is awaited, its action and the one before are SENT. -/
theorem State.Inv.phase_of_wait (hf : s.fsm = .wait) (hj : j < s.seqN.toNat) : s.phase j =
    some (if s.seqI.toNat < j then .pending else if s.seqI.toNat ≤ j + 1 then .sent else .resolved) := by
  have htrail := h.seqTrail_iff (by simp [hf]) ho
  rw [Machine.phase_of_wait ho hf hj]
  congr 1
  cases ht : s.seqTrail
  · have hle : ¬ s.seqI.toNat < j → (s.seqI.toNat = j ∨ s.seqI.toNat = j + 1 ↔ s.seqI.toNat ≤ j + 1) := by omega
    by_cases hlt : s.seqI.toNat < j
    · simp [hlt]
    · simp [hlt, hle hlt]
  · have hi := htrail.1 ht
    have hgt : ¬ s.seqI.toNat < j := by omega
    have hlast : s.seqI.toNat = j + 1 ∨ j + 1 = s.seqN.toNat ∧ s.isReadAt j = true ↔ s.seqI.toNat ≤ j + 1 := by omega
    simp [hgt, hlast]

/-- An OK answer resolves the action before its own, and its own where that is a last write (42 R175). -/
theorem State.Inv.resolves_of_wait (hf : s.fsm = .wait) (hj : j < s.seqN.toNat) : s.resolves j = true ↔
    s.seqI.toNat = j + 1 ∨ (s.seqI.toNat = j ∧ j + 1 = s.seqN.toNat ∧ s.isReadAt j = false) := by
  have htrail := h.seqTrail_iff (by simp [hf]) ho
  obtain ⟨-, -, -, hlast, -⟩ := h.bulkInv (by simp [hf]) ho
  have hread : s.seqI.toNat = j + 1 → j + 1 = s.seqN.toNat → s.isReadAt j = true := by
    intro hi hn
    obtain ⟨-, hr⟩ := hlast (htrail.2 (hi.trans hn))
    rwa [← hn, Nat.add_sub_cancel] at hr
  rw [Machine.resolves_of_wait ho hf, htrail]
  constructor
  · rintro (⟨-, hi⟩ | ⟨hn, -, hi⟩ | ⟨hn, hr, hi⟩)
    · exact .inl hi
    · exact .inl (hi.trans hn.symm)
    · exact .inr ⟨hi, hn, hr⟩
  · rintro (hi | ⟨hi, hn, hr⟩)
    · by_cases hn : j + 1 < s.seqN.toNat
      · exact .inl ⟨hn, hi⟩
      · have hn : j + 1 = s.seqN.toNat := by omega
        exact .inr (.inl ⟨hn, hread hi hn, hi.trans hn⟩)
    · exact .inr (.inr ⟨hn, hr, hi⟩)

end

/-! ### An Issue step -/

section
variable (h : s.Inv) (ho : s.curOp = opBulk) (hf : s.fsm = .issue) (hj : j < s.seqN.toNat)
include h ho hf hj

/-- Transaction `SEQ_I` is action `SEQ_I`'s own unless it is the trailing one (42 R172). -/
theorem ownTransaction_iff : s.seqTrail = false ∧ j = s.seqI.toNat ↔ j = s.seqI.toNat := by
  refine and_iff_right_of_imp fun hi => Bool.eq_false_of_not_eq_true fun ht => ?_
  have := (h.seqTrail_iff (by simp [hf]) ho).1 ht
  omega

variable (f : WireFrame)

theorem phase_issue : (s.issue f).phase j =
    some (if s.seqI.toNat < j then .pending else if s.seqI.toNat ≤ j + 1 then .sent else .resolved) :=
  (h.issue hf f).phase_of_wait ho rfl hj

/-- An Issue step moves no action but the one it issues (42 R175). -/
theorem phase_issue_of_ne (hne : j ≠ s.seqI.toNat) : (s.issue f).phase j = s.phase j := by
  have hp : s.seqI.toNat < j ↔ s.seqI.toNat ≤ j := by omega
  have hs : ¬ s.seqI.toNat ≤ j → (s.seqI.toNat ≤ j + 1 ↔ s.seqI.toNat = j + 1) := by omega
  rw [h.phase_of_issue ho hf hj, phase_issue h ho hf hj f]
  by_cases hle : s.seqI.toNat ≤ j
  · simp [hp, hle]
  · simp [hp, hle, hs hle]

/-- An Issue step sends the action it issues, and only that one (42 R175). -/
theorem phase_issue_sends_iff :
    (s.phase j = some .pending ∧ (s.issue f).phase j = some .sent) ↔ j = s.seqI.toNat := by
  constructor
  · rintro ⟨hp, hs⟩
    by_contra hne
    rw [phase_issue_of_ne h ho hf hj f hne, hp] at hs
    cases hs
  · intro hi
    rw [h.phase_of_issue ho hf hj, phase_issue h ho hf hj f]
    simp [← hi]

end

/-! ### An answer -/

/-- The kinds of the actions stay while their words are received. -/
theorem resolvePrevious_isReadAt (s : State) (i : Nat) (rx : Word) (j : Nat) :
    (s.resolvePrevious i rx).isReadAt j = s.isReadAt j := by
  obtain ⟨k, hk⟩ := resolvePrevious_eq_setActWord s i rx
  rw [hk, setActWord_isReadAt]

theorem curOp_ne_of_bulk (ho : s.curOp = opBulk) : s.curOp ≠ opReadReg ∧ s.curOp ≠ opWriteReg := by
  rw [ho]
  decide

/-- An OK answer of a BULK starts transaction `SEQ_I + 1`, or it is the trailing one's or a last write's and ends the
BULK (42 R171, R172). -/
theorem ReplyEffect.goesOn_or_ends (he : ReplyEffect st rx s t) (ho : s.curOp = opBulk) :
    (t.fsm = .issue ∧ t.resStatus = s.resStatus ∧ t.seqI.toNat = s.seqI.toNat + 1 ∧
        ∀ k, t.isReadAt k = s.isReadAt k) ∨
      (t.fsm = .idle ∧ t.resStatus = st ∧ t.err = .none ∧
        (s.seqTrail = true ∨ (s.seqI.toNat + 1 = s.seqN.toNat ∧ s.isReadAt s.seqI.toNat = false))) := by
  obtain ⟨hread, hwrite⟩ := curOp_ne_of_bulk ho
  cases he with
  | readRegArmed ho' hi => exact absurd ho' hread
  | readRegDone ho' hi => exact absurd ho' hread
  | writeRegDone ho' => exact absurd ho' hwrite
  | bulkNext ho ht hi => exact .inl ⟨rfl, by rw [resolvePrevious_eq], by bv_omega, resolvePrevious_isReadAt s _ rx⟩
  | bulkToTrailing ho ht hi hr =>
    exact .inl ⟨rfl, by rw [resolvePrevious_eq], by bv_omega, resolvePrevious_isReadAt s _ rx⟩
  | bulkDone ho ht hi hr => exact .inr ⟨rfl, rfl, rfl, .inr ⟨hi, hr⟩⟩
  | trailingDone ho ht hn => exact .inr ⟨rfl, rfl, rfl, .inl ht⟩

section
variable (h : s.Inv) (ho : s.curOp = opBulk) (hf : s.fsm = .wait)
include h ho hf

/-- An action that an answer resolves was SENT (42 R175). -/
theorem phase_of_resolves (hj : j < s.seqN.toNat) (hr : s.resolves j = true) : s.phase j = some .sent := by
  rw [h.resolves_of_wait ho hf hj] at hr
  have hgt : ¬ s.seqI.toNat < j := by omega
  have hle : s.seqI.toNat ≤ j + 1 := by omega
  rw [h.phase_of_wait ho hf hj, if_neg hgt, if_pos hle]

/-- An answer after which the BULK goes on resolves the action before its own and moves no other (42 R175). -/
theorem phase_of_next (h' : t.Inv) (ho' : t.curOp = opBulk) (hf' : t.fsm = .issue) (hn : t.seqN = s.seqN)
    (hi : t.seqI.toNat = s.seqI.toNat + 1) (hr : ∀ k, t.isReadAt k = s.isReadAt k) (hj : j < s.seqN.toNat) :
    t.phase j = if s.resolves j then some .resolved else s.phase j := by
  have hres : s.resolves j = true ↔ s.seqI.toNat = j + 1 := by
    refine (h.resolves_of_wait ho hf hj).trans (or_iff_left fun ⟨hij, hjn, hw⟩ => ?_)
    have ht' : t.seqTrail = true := (h'.seqTrail_iff (by simp [hf']) ho').2 (by rw [hi, hn, hij, hjn])
    obtain ⟨-, -, -, hlast, -⟩ := h'.bulkInv (by simp [hf']) ho'
    obtain ⟨-, hr'⟩ := hlast ht'
    rw [hn, ← hjn, Nat.add_sub_cancel, hr, hw] at hr'
    cases hr'
  rw [h'.phase_of_issue ho' hf' (hn ▸ hj), h.phase_of_wait ho hf hj, hi]
  by_cases hij : s.seqI.toNat = j + 1
  · simp [hres.2 hij, hij]
  · rw [if_neg (mt hres.1 hij)]
    have hs : ¬ s.seqI.toNat < j → (s.seqI.toNat = j ↔ s.seqI.toNat ≤ j + 1) := by omega
    by_cases hlt : s.seqI.toNat < j
    · simp [hlt]
    · simp [hlt, hs hlt]

/-- After the answer that ends a BULK every action is resolved (42 R175). -/
theorem resolved_of_done
    (hend : s.seqTrail = true ∨ (s.seqI.toNat + 1 = s.seqN.toNat ∧ s.isReadAt s.seqI.toNat = false))
    (hj : j < s.seqN.toNat) : s.resolves j = true ∨ s.phase j = some .resolved := by
  rw [h.resolves_of_wait ho hf hj]
  by_cases hi : s.seqI.toNat ≤ j + 1
  · refine .inl ?_
    obtain ht | ⟨hlast, hw⟩ := hend
    · have := (h.seqTrail_iff (by simp [hf]) ho).1 ht
      exact .inl (by omega)
    · obtain hij | hij : s.seqI.toNat = j ∨ s.seqI.toNat = j + 1 := by omega
      · exact .inr ⟨hij, hij ▸ hlast, hij ▸ hw⟩
      · exact .inl hij
  · exact .inr (by rw [h.phase_of_wait ho hf hj, if_neg (by omega), if_neg hi])

/-- An OK answer of a BULK writes the received word into the action before its own, if that is a read (42 R171,
R172). -/
theorem ReplyEffect.act_of_bulk (he : ReplyEffect st rx s t) (j : Nat) : t.act[j]? =
    (s.act[j]?).map fun e => if j + 1 = s.seqI.toNat ∧ e.kind = .read then { e with word := rx } else e := by
  obtain ⟨hread, hwrite⟩ := curOp_ne_of_bulk ho
  cases he with
  | readRegArmed ho' hi => exact absurd ho' hread
  | readRegDone ho' hi => exact absurd ho' hread
  | writeRegDone ho' => exact absurd ho' hwrite
  | bulkNext ho ht hi => exact resolvePrevious_act s _ rx j
  | bulkToTrailing ho ht hi hr => exact resolvePrevious_act s _ rx j
  | bulkDone ho ht hi hr => exact resolvePrevious_act s _ rx j
  | trailingDone ho ht hn =>
    obtain ⟨-, -, -, hlast, -⟩ := h.bulkInv (by simp [hf]) ho
    obtain ⟨hi, hr⟩ := hlast ht
    cases he : s.act[j]? with
    | none => simp [List.getElem?_eq_none_iff.1 he]
    | some e =>
      have hj : s.seqN.toNat - 1 = j ↔ j + 1 = s.seqI.toNat ∧ e.kind = .read := by
        refine ⟨fun hj => ⟨by omega, (isReadAt_of_entry he).1 (hj ▸ hr)⟩, fun ⟨hj, _⟩ => by omega⟩
      by_cases hj' : s.seqN.toNat - 1 = j
      · simp [he, hj', hj.1 hj']
      · simp [he, hj', mt hj.2 hj']

/-- An OK answer of a BULK resolves what the rule says it resolves; where it ends the BULK, all actions are resolved
(42 R175). -/
theorem ReplyEffect.phases (he : ReplyEffect st rx s t) (hj : j < s.seqN.toNat) :
    (t.fsm = .issue ∧ t.phase j = if s.resolves j then some .resolved else s.phase j) ∨
      (t.fsm = .idle ∧ (s.resolves j = true ∨ s.phase j = some .resolved)) := by
  refine (he.goesOn_or_ends ho).imp (fun ⟨hf', _, hi, hr⟩ => ⟨hf', ?_⟩)
    (fun ⟨hf', _, _, hend⟩ => ⟨hf', resolved_of_done h ho hf hend hj⟩)
  exact phase_of_next h ho hf (h.replyOk hf he) (by rw [he.frame]; exact ho) hf' (by rw [he.frame]) hi hr hj

/-- The words an OK answer of a BULK writes are those of the reads it resolves (42 R175). -/
theorem ReplyEffect.act_of_resolves (he : ReplyEffect st rx s t) (hj : j < s.seqN.toNat) {e : Action}
    (hj' : s.act[j]? = some e) :
    t.act[j]? = some (if s.resolves j = true ∧ e.kind = .read then { e with word := rx } else e) := by
  have hread : s.resolves j = true ∧ e.kind = .read ↔ j + 1 = s.seqI.toNat ∧ e.kind = .read := by
    refine and_congr_left fun hk => ?_
    rw [h.resolves_of_wait ho hf hj, (isReadAt_of_entry hj').2 hk]
    simp [eq_comm]
  simp only [he.act_of_bulk h ho hf j, hj', Option.map_some, hread]

/-- In the failed transaction `t` action `t` is SENT and so is the one before; no later one is (42 R176). -/
theorem phase_of_failed (hj : j < s.seqN.toNat) : s.phase j =
    some (if j + 1 < s.seqI.toNat then .resolved else if j ≤ s.seqI.toNat then .sent else .pending) := by
  rw [h.phase_of_wait ho hf hj]
  obtain hgt | ⟨hle, hle'⟩ | hlt :
      j + 1 < s.seqI.toNat ∨ (s.seqI.toNat ≤ j + 1 ∧ j ≤ s.seqI.toNat) ∨ s.seqI.toNat < j := by omega
  · rw [if_neg (by omega), if_neg (by omega), if_pos hgt]
  · rw [if_neg (by omega), if_pos hle, if_neg (by omega), if_pos hle']
  · rw [if_pos hlt, if_neg (by omega), if_neg (by omega)]

end

/-! ### The steps of a BULK in progress -/

/-- Settles O47: the states are functions of `SEQ_I` and `FSM`, which an Issue step and an OK answer move on by one. -/
theorem actionPhasesAdvanceInOrder : Obligations.ActionPhasesAdvanceInOrder := by
  refine ⟨fun s j hf => ⟨phase_of_idle hf j, resolves_of_idle hf j⟩, fun s t j h hr ho _ hj hstep =>
    ⟨fun hf => ?_, fun hf hn => ?_, fun st b0 b1 b2 b3 hf hd => ?_, fun e hf hd => ?_⟩⟩
  · obtain ⟨-, he⟩ := step_effect hr hstep
    obtain ⟨f, -, rfl⟩ := he.eq_issue hf
    rw [ownTransaction_iff h ho hf hj]
    exact ⟨phase_issue_sends_iff h.ticked ho hf hj f, phase_issue_of_ne h.ticked ho hf hj f⟩
  · rw [step_of_noReply h.noFault hr hf hn] at hstep
    cases hstep
    rfl
  · obtain ⟨rest, hd⟩ := List.head?_eq_some_iff.1 hd
    rw [step_of_reply h.noFault hr hf hd] at hstep
    have he := replyOk_effect hstep
    have hu := h.ticked.withReplies rest
    have hphases := he.phases hu ho hf hj
    exact ⟨phase_of_resolves h ho hf hj, hphases, fun e hj' => he.act_of_resolves hu ho hf hj hj'⟩
  · obtain ⟨rest, hd⟩ := List.head?_eq_some_iff.1 hd
    rw [step_of_reply h.noFault hr hf hd] at hstep
    cases hstep
    exact ⟨rfl, rfl, phase_of_failed h ho hf hj⟩

end Sys2Proof.Machine
end

section
/-! READ_REG and WRITE_REG from the port to their end (42_protocol.md R165, R166, R177, R179, R181): a run is the
accepted command's step and two steps for each transaction. -/

namespace Sys2Proof.Machine

variable {s t : State}

/-! ### Runs -/

theorem runFor_succ_of_next (h : step s = .next t) (k : Nat) : runFor (k + 1) s = runFor k t := by
  rw [runFor, h]

/-- With the reset line quiet, an idle block accepts the command at the port (30 R92). -/
theorem runFor_of_command {w d : Word} {cmds : List (Word × Word)} {i : Instr} (hs : s.Ready)
    (hr : s.env.resetLine = []) (hc : s.env.hostCmds = (w, d) :: cmds) (hd : decode (.cmd w d) = .ok i)
    (he : exec i (s.withCmds cmds) = .next t)
    (k : Nat) : runFor (k + 1) s = runFor k t := by
  refine runFor_succ_of_next ?_ k
  rw [step_of_command hs.noFault (noReset_of_nil hr) hs.idle hc, runDecoded_of_ok hd, ticked_eq_self s hr, he]

/-- With the reset line quiet, a transaction is two steps: the frame is handed over, then the answer is taken (42
R161). -/
theorem runFor_of_transaction {f : WireFrame} {r : Reply} {rest : List Reply} (h : s.internalFault = none)
    (hr : s.env.resetLine = []) (hf : s.fsm = .issue) (hw : s.frame = some f) (hd : s.env.replies = r :: rest)
    (ht : ((s.issue f).withReplies rest).reply r = .next t) (k : Nat) : runFor (k + 2) s = runFor k t := by
  have h' : (s.issue f).internalFault = none := noFault_of_fsm h (f := .wait) (by decide)
  have hissue : step s = .next (s.issue f) := by rw [step_of_issue h (noReset_of_nil hr) hf hw, ticked_eq_self s hr]
  refine (runFor_succ_of_next hissue (k + 1)).trans (runFor_succ_of_next ?_ k)
  rw [step_of_reply h' (noReset_of_nil hr) rfl hd, ticked_eq_self (s.issue f) hr, ht]

theorem ready_withCmds (hs : s.Ready) (cmds : List (Word × Word)) : (s.withCmds cmds).Ready where
  noFault := hs.noFault
  idle := hs.idle

/-! ### The transactions of READ_REG and WRITE_REG -/

section
variable {st st' : Byte} {rx rx' : Word} {rest : List Reply} (h : s.internalFault = none) (hr : s.env.resetLine = [])
  (hf : s.fsm = .issue)
include h hr hf

theorem runFor_readReg_first (hd : s.env.replies = okReply st rx :: rest) (ho : s.curOp = opReadReg) (hi : s.seqI = 0#9)
    (k : Nat) : runFor (k + 2) s =
      runFor k { (s.issue (mkFrame s.curAddr readFill)).withReplies rest with seqI := 1#9, fsm := .issue } :=
  runFor_of_transaction h hr hf (frame_of_readReg ho) hd (reply_okReply.trans (replyOk_readReg_first ho hi)) k

theorem runFor_readReg_second (hd : s.env.replies = okReply st rx :: rest) (ho : s.curOp = opReadReg)
    (hi : s.seqI = 1#9) (k : Nat) : runFor (k + 2) s =
      runFor k { (((s.issue (mkFrame s.curAddr readFill)).withReplies rest).setStatus st).setRes s.curAddr rx with
                  err := .none, fsm := .idle } :=
  runFor_of_transaction h hr hf (frame_of_readReg ho) hd (reply_okReply.trans (replyOk_readReg_second ho hi)) k

/-- The two transactions of a READ_REG: the register is named twice, the second answer is the result (42 R165). -/
theorem runFor_readReg (hd : s.env.replies = okReply st rx :: okReply st' rx' :: rest) (ho : s.curOp = opReadReg)
    (hi : s.seqI = 0#9) (k : Nat) : runFor (k + 4) s =
      runFor k { s with seqI := 1#9, txAbyte := s.curAddr, txData := readFill, txnCount := s.txnCount + 1#9 + 1#9,
                        resStatus := st', resTag := s.curAddr, resWord := rx', resValid := true, err := .none,
                        fsm := .idle,
                        env := { s.env with replies := rest,
                                            wire := s.env.wire ++ [mkFrame s.curAddr readFill] ++
                                              [mkFrame s.curAddr readFill] } } := by
  have h' : { s with fsm := .issue }.internalFault = none := noFault_of_fsm h (by decide)
  refine (runFor_readReg_first h hr hf hd ho hi (k + 2)).trans ?_
  rw [issue_mkFrame]
  refine (runFor_readReg_second (s := { s with
    seqI := 1#9, txAbyte := s.curAddr, txData := readFill, txnCount := s.txnCount + 1#9, fsm := .issue,
    env := { s.env with replies := okReply st' rx' :: rest, wire := s.env.wire ++ [mkFrame s.curAddr readFill] } })
    h' hr rfl rfl ho rfl k).trans ?_
  rw [issue_mkFrame]
  rfl

/-- The one transaction of a WRITE_REG (42 R166). -/
theorem runFor_writeReg (hd : s.env.replies = okReply st rx :: rest) (ho : s.curOp = opWriteReg) (k : Nat) :
    runFor (k + 2) s =
      runFor k { s with txAbyte := s.curAddr ||| 0x80#8, txData := s.curData, txnCount := s.txnCount + 1#9,
                        resStatus := st, err := .none, fsm := .idle,
                        env := { s.env with replies := rest,
                                            wire := s.env.wire ++ [mkFrame (s.curAddr ||| 0x80#8) s.curData] } } := by
  rw [runFor_of_transaction h hr hf (frame_of_writeReg ho) hd (reply_okReply.trans (replyOk_writeReg ho)),
    issue_mkFrame]
  rfl

end

/-! ### Whole commands -/

/-- Settles O52: the first answer starts the second transaction, whose answer is the result. -/
theorem readRegTakesTwoTransactions : Obligations.ReadRegTakesTwoTransactions := by
  intro s a st1 st2 w d rx1 rx2 cmds rest hs hr hc hd ha hreplies
  rw [runFor_of_command hs hr hc hd (exec_readReg_of_readable (ready_withCmds hs cmds) ha)]
  refine (runFor_readReg (s := { (s.withCmds cmds).accept opReadReg with curAddr := a })
    (noFault_of_fsm hs.noFault (f := .issue) (by decide)) hr rfl hreplies rfl rfl 0).trans ?_
  rw [List.append_assoc]
  rfl

/-- Settles O53: the answer to the one transaction ends the command. -/
theorem writeRegTakesOneTransaction : Obligations.WriteRegTakesOneTransaction := by
  intro s a st w v rx cmds rest hs hr hc hd ha hreplies
  rw [runFor_of_command hs hr hc hd (exec_writeReg_of_writable (ready_withCmds hs cmds) ha v)]
  exact runFor_writeReg (s := { (s.withCmds cmds).accept opWriteReg with curAddr := a, curData := v })
    (noFault_of_fsm hs.noFault (f := .issue) (by decide)) hr rfl hreplies rfl 0

/-! ### Against the chip -/

/-- Presenting a command to an idle block keeps the invariant (30 R92). -/
theorem State.Inv.withFetched (h : s.Inv) (w d : Word) : (s.withFetched (.cmd w d)).Inv :=
  { h with
    noFault := noFault_of_fsm h.noFault (f := .idle) (by decide)
    sequencer := fun hi => absurd rfl hi }

theorem State.Inv.ready (h : s.Inv) (hf : s.fsm = .idle) : s.Ready where
  noFault := h.noFault
  idle := hf

/-- A read frame arms the chip's latch with the address it names (42 R160). -/
theorem pending_after_readFrame {a : Byte} (ha : a.getLsbD 7 = false) (chip : Chip) :
    (chip.after (mkFrame a readFill)).pending = some (a.setWidth 7) := by
  rw [Chip.after, abyte_mkFrame, ha, if_neg Bool.false_ne_true]

/-- Settles O59: the first frame arms the latch with the register the second answer is for. -/
theorem readRegReturnsTheChipsValue : Obligations.ReadRegReturnsTheChipsValue := by
  intro s a st1 st2 rx1 rx2 rest h hf hr ha hreplies
  have hlt : a.toNat < 128 := lt_of_slot_isSome (slot_isSome_of_readable ha)
  refine ⟨_, mkFrame a readFill, mkFrame a readFill, readRegTakesTwoTransactions (s.withFetched (encode (.readReg a)))
    a st1 st2 _ _ rx1 rx2 s.env.hostCmds rest ((h.withFetched _ _).ready rfl) rfl rfl
    (decodeOfEncodeIsIdentity (.readReg a) rfl) ha hreplies, rfl, rfl, fun chip v ⟨_, hsecond, _⟩ => ?_⟩
  exact hsecond _ (pending_after_readFrame (getLsbD_of_lt (BitVec.lt_def.2 hlt)) chip)

end Sys2Proof.Machine
end

section
/-! BULK from the port to its end (42_protocol.md R169 to R173, R176 to R178, R181): what a BULK has done once some of
its transactions are answered, kept by each transaction and read off at the end or at a failure. -/

namespace Sys2Proof.Machine

/-! ### What the answers do to an action -/

/-- Action `j` once the answers `oks` have come: a read has the data of transaction `j + 1` (42 R171). -/
def Action.received (e : Action) (oks : List (Byte × Word)) (j : Nat) : Action :=
  match oks[j + 1]? with
  | some p => if e.kind = .read then { e with word := p.2 } else e
  | none => e

section
variable {e : Action} {oks : List (Byte × Word)} {j : Nat}

/-- An action has the word it had until transaction `j + 1` is answered. -/
theorem received_of_le (h : oks.length ≤ j + 1) : e.received oks j = e := by
  rw [Action.received, List.getElem?_eq_none h]

@[simp] theorem received_kind : (e.received oks j).kind = e.kind := by
  unfold Action.received
  split
  · split <;> rfl
  · rfl

/-- One more answer is the one of transaction `oks.length`. -/
theorem received_append (p : Byte × Word) : e.received (oks ++ [p]) j =
    if j + 1 = oks.length ∧ e.kind = .read then { e.received oks j with word := p.2 } else e.received oks j := by
  obtain hlt | heq | hgt := Nat.lt_trichotomy (j + 1) oks.length
  · have hne : ¬ j + 1 = oks.length := by omega
    simp only [Action.received, List.getElem?_append_left hlt, hne, false_and, if_false]
  · rw [received_of_le (oks := oks) heq.ge, Action.received, heq, List.getElem?_concat_length]
    simp
  · have hne : ¬ j + 1 = oks.length := by omega
    rw [received_of_le (by simp; omega), received_of_le hgt.le]
    simp [hne]

theorem some_received : some (e.received oks j) =
    if j + 2 ≤ oks.length ∧ e.kind = .read then (oks[j + 1]?).map fun p => { e with word := p.2 } else some e := by
  by_cases hj : j + 2 ≤ oks.length
  · rw [Action.received, List.getElem?_eq_getElem hj]
    by_cases hk : e.kind = .read <;> simp [hk, hj]
  · rw [received_of_le (by omega), if_neg fun ⟨h, _⟩ => hj h]

end

/-! ### The frames of a BULK -/

section
variable {s : State} {n m : Nat} {e : Action}

theorem bulkFrames_of_action (hm : m < n) (he : s.act[m]? = some e) : (s.bulkFrames n)[m]? = some e.frame := by
  have hlt : m < s.act.length := (List.getElem?_eq_some_iff.1 he).1
  rw [State.bulkFrames, List.getElem?_append_left (by simp; omega), List.getElem?_map, List.getElem?_take_of_lt hm, he,
    Option.map_some]

theorem bulkFrames_eq (he : s.act[n - 1]? = some e) :
    s.bulkFrames n = (s.act.take n).map Action.frame ++ if e.kind = .read then [e.frame] else [] := by
  simp only [State.bulkFrames, he]

theorem bulkFrames_trailing (he : s.act[n - 1]? = some e) (hk : e.kind = .read) :
    (s.bulkFrames n)[n]? = some (mkFrame e.tag readFill) := by
  have hlt : n - 1 < s.act.length := (List.getElem?_eq_some_iff.1 he).1
  have hlen : ((s.act.take n).map Action.frame).length = n := by simp; omega
  rw [bulkFrames_eq he, if_pos hk, frame_of_read hk, List.getElem?_append_right hlen.le, hlen, Nat.sub_self]
  rfl

theorem bulkTxns_eq (he : s.act[n - 1]? = some e) : s.bulkTxns n = n + if e.kind = .read then 1 else 0 := by
  simp only [State.bulkTxns, isReadAt_of_entry he]

/-- A BULK puts one frame on the wire for each of its transactions (42 R177). -/
theorem bulkFrames_length (hn : 1 ≤ n) (he : s.act[n - 1]? = some e) : (s.bulkFrames n).length = s.bulkTxns n := by
  have hlt : n - 1 < s.act.length := (List.getElem?_eq_some_iff.1 he).1
  have hlen : ((s.act.take n).map Action.frame).length = n := by simp; omega
  rw [bulkFrames_eq he, bulkTxns_eq he, List.length_append, hlen]
  split <;> rfl

end

/-! ### What a BULK in progress has done -/

/-- `u` is `s`, a BULK of `n` actions accepted in it, with what the BULK writes by the time it has handed `m` of its
frames over and taken the answers `oks`; the answers `later` are still to come. -/
structure BulkEffect (s : State) (n : Nat) (oks : List (Byte × Word)) (m : Nat) (later : List Reply) (u : State) :
    Prop where
  act : ∀ j, u.act[j]? = (s.act[j]?).map fun e : Action => e.received oks j
  env : u.env = { s.env with replies := later, wire := s.env.wire ++ (s.bulkFrames n).take m }
  map : u.map = s.map
  res : u.resTag = s.resTag ∧ u.resWord = s.resWord ∧ u.resValid = s.resValid ∧ u.resAux = s.resAux
  cfg : u.cfg = s.cfg

/-- The BULK is about to issue transaction `oks.length`. -/
structure BulkAt (s : State) (n : Nat) (oks : List (Byte × Word)) (later : List Reply) (u : State) : Prop
    extends BulkEffect s n oks oks.length later u where
  inv : u.Inv
  fsm : u.fsm = .issue
  curOp : u.curOp = opBulk
  seqN : u.seqN.toNat = n
  seqI : u.seqI.toNat = oks.length
  resStatus : u.resStatus = s.resStatus
  terr : u.terr = s.terr

/-- The BULK has ended in success after the answers `oks`. -/
structure BulkDone (s : State) (n : Nat) (oks : List (Byte × Word)) (later : List Reply) (u : State) : Prop
    extends BulkEffect s n oks oks.length later u where
  fsm : u.fsm = .idle
  err : u.err = .none
  txnCount : u.txnCount.toNat = oks.length
  resStatus : (oks.getLast?).map (·.1) = some u.resStatus
  terr : u.terr = s.terr
  count : oks.length = s.bulkTxns n

section
variable {s u t : State} {n m : Nat} {oks : List (Byte × Word)} {later rest : List Reply} {f : WireFrame} {st : Byte}
  {rx : Word}

theorem BulkEffect.isReadAt (h : BulkEffect s n oks m later u) (j : Nat) : u.isReadAt j = s.isReadAt j := by
  rw [State.isReadAt, State.isReadAt, h.act]
  cases s.act[j]? <;> simp

/-- An action that waits for its data is the one accepted. -/
theorem BulkEffect.entry (h : BulkEffect s n oks m later u) {j : Nat} (hj : oks.length ≤ j + 1) :
    u.act[j]? = s.act[j]? := by
  rw [h.act]
  simp only [received_of_le hj, Option.map_id']

/-- A frame handed over is the BULK's next one. -/
theorem BulkEffect.issue (h : BulkEffect s n oks m later u) (hf : (s.bulkFrames n)[m]? = some f) :
    BulkEffect s n oks (m + 1) later (u.issue f) where
  act := h.act
  env := by
    have hw : (s.bulkFrames n).take (m + 1) = (s.bulkFrames n).take m ++ [f] := by rw [List.take_add_one, hf]; rfl
    rw [State.issue_env, h.env, hw, ← List.append_assoc]
  map := h.map
  res := h.res
  cfg := h.cfg

/-- The next answer leaves the transport. -/
theorem BulkEffect.withReplies (h : BulkEffect s n oks m later u) : BulkEffect s n oks m rest (u.withReplies rest) where
  act := h.act
  env := by rw [State.withReplies_env, h.env]
  map := h.map
  res := h.res
  cfg := h.cfg

/-- The answer to transaction `oks.length` is received. -/
theorem BulkEffect.reply (h : BulkEffect s n oks m later u) (hu : u.Inv) (hf : u.fsm = .wait) (ho : u.curOp = opBulk)
    (hi : u.seqI.toNat = oks.length) (he : ReplyEffect st rx u t) : BulkEffect s n (oks ++ [(st, rx)]) m later t where
  act := fun j => by
    rw [he.act_of_bulk hu ho hf, h.act, Option.map_map]
    cases s.act[j]? with
    | none => rfl
    | some e => simp [received_append, hi]
  env := by rw [he.env_eq, h.env]
  map := by rw [he.frame]; exact h.map
  res := by
    obtain ⟨htag, hword, hvalid, haux⟩ := h.res
    obtain ⟨htag', hword', hvalid'⟩ := he.res_writers.resolve_right fun ⟨hr, _⟩ => (curOp_ne_of_bulk ho).1 hr
    exact ⟨htag'.trans htag, hword'.trans hword, hvalid'.trans hvalid, by rw [he.frame]; exact haux⟩
  cfg := by rw [he.frame]; exact h.cfg

/-! ### One transaction of a BULK -/

/-- The acceptance of a BULK does nothing else (42 R169). -/
theorem bulkAt_of_accepted (h : s.Inv) {n : Byte} (hn : 1 ≤ n.toNat) (hv : s.actionsValid n.toNat = true) :
    BulkAt s n.toNat [] s.env.replies { s.accept opBulk with seqN := n } where
  act := fun j => by
    simp only [received_of_le (oks := []) (Nat.zero_le _), Option.map_id']
    rfl
  env := by simp
  map := rfl
  res := ⟨rfl, rfl, rfl, rfl⟩
  cfg := rfl
  inv := h.acceptBulk hn hv
  fsm := rfl
  curOp := rfl
  seqN := rfl
  seqI := rfl
  resStatus := rfl
  terr := rfl

section
variable (h : BulkAt s n oks later u)
include h

/-- FRAME(state) is the BULK's frame of number `SEQ_I`; the trailing transaction's is the last (42 R170). -/
theorem BulkAt.frame : ∃ f, u.frame = some f ∧ (s.bulkFrames n)[oks.length]? = some f := by
  have hbusy : u.fsm ≠ .idle := by simp [h.fsm]
  obtain ⟨hn, -, hbefore, htrail, -⟩ := h.inv.bulkInv hbusy h.curOp
  rw [h.seqN] at hn hbefore htrail
  cases ht : u.seqTrail with
  | false =>
    have hlt := hbefore ht
    obtain ⟨e, he⟩ := h.inv.entry (j := u.seqI.toNat) (by rwa [h.seqN])
    rw [← h.seqI]
    have he' : s.act[u.seqI.toNat]? = some e := by rwa [← h.entry (by rw [h.seqI]; omega)]
    exact ⟨e.frame, frame_of_action h.curOp ht he, bulkFrames_of_action hlt he'⟩
  | true =>
    obtain ⟨hi, hr⟩ := htrail ht
    rw [h.seqI] at hi
    obtain ⟨e, he⟩ := h.inv.entry (j := n - 1) (by rw [h.seqN]; omega)
    have he' : s.act[n - 1]? = some e := by rwa [← h.entry (by omega)]
    refine ⟨_, frame_of_trailing h.curOp ht (by rwa [h.seqN]) (by rwa [h.seqN]), ?_⟩
    rw [hi]
    exact bulkFrames_trailing he' ((isReadAt_of_entry he).1 hr)

/-- A BULK about to issue a transaction has had fewer answers than it issues transactions (42 R177). -/
theorem BulkAt.lt_bulkTxns : oks.length < s.bulkTxns n := by
  have hbusy : u.fsm ≠ .idle := by simp [h.fsm]
  obtain ⟨-, -, hbefore, htrail, -⟩ := h.inv.bulkInv hbusy h.curOp
  rw [h.seqN, h.seqI] at hbefore htrail
  rw [State.bulkTxns, ← h.isReadAt]
  cases ht : u.seqTrail with
  | false => have := hbefore ht; omega
  | true =>
    obtain ⟨hi, hr⟩ := htrail ht
    rw [if_pos hr]
    omega

end

/-- Every OK answer of a BULK has a continuation (42 R163, R171, R172). -/
theorem State.Inv.replyOk_bulk_total (h : s.Inv) (hf : s.fsm = .wait) (ho : s.curOp = opBulk) (st : Byte) (rx : Word) :
    ∃ t, s.replyOk st rx = .next t := by
  obtain ⟨hn, -, hbefore, -, -⟩ := h.bulkInv (by simp [hf]) ho
  cases ht : s.seqTrail with
  | true =>
    obtain ⟨e, he⟩ := h.entry (j := s.seqN.toNat - 1) (by omega)
    exact ⟨_, replyOk_trailing ho ht hn he⟩
  | false =>
    have hlt := hbefore ht
    obtain ⟨e, he⟩ := h.entry hlt
    obtain hi | hi : s.seqI.toNat + 1 < s.seqN.toNat ∨ s.seqI.toNat + 1 = s.seqN.toNat := by omega
    · exact ⟨_, replyOk_bulk_next ho ht hi⟩
    · cases hk : e.kind with
      | read => exact ⟨_, replyOk_bulk_last_read ho ht hi he hk⟩
      | write => exact ⟨_, replyOk_bulk_last_write ho ht hi he hk⟩

/-- The answer that ends a BULK is the one to its last transaction (42 R177). -/
theorem BulkEffect.bulkTxns_of_end (h : BulkEffect s n oks m later u) (hu : u.Inv) (hf : u.fsm = .wait)
    (ho : u.curOp = opBulk) (hn : u.seqN.toNat = n)
    (hend : u.seqTrail = true ∨ (u.seqI.toNat + 1 = u.seqN.toNat ∧ u.isReadAt u.seqI.toNat = false)) :
    u.seqI.toNat + 1 = s.bulkTxns n := by
  obtain ⟨-, -, -, htrail, -⟩ := hu.bulkInv (by simp [hf]) ho
  rw [State.bulkTxns, ← h.isReadAt, ← hn]
  obtain ht | ⟨hi, hw⟩ := hend
  · obtain ⟨hi, hr⟩ := htrail ht
    rw [if_pos hr, hi]
  · rw [← hi, Nat.add_sub_cancel, hw, if_neg Bool.false_ne_true]

/-- A transaction of a BULK is two steps, between which its frame is out and its answer is in (42 R161). -/
theorem BulkAt.transaction {r : Reply} (h : BulkAt s n oks (r :: rest) u) (hr : s.env.resetLine = []) :
    ∃ f, BulkEffect s n oks (oks.length + 1) rest ((u.issue f).withReplies rest) ∧
      ((u.issue f).withReplies rest).Inv ∧
      ∀ t, ((u.issue f).withReplies rest).reply r = .next t → ∀ k, runFor (k + 2) u = runFor k t := by
  obtain ⟨f, hframe, hf⟩ := h.frame
  have hr' : u.env.resetLine = [] := by rw [h.env]; exact hr
  have hd : u.env.replies = r :: rest := by rw [h.env]
  exact ⟨f, (h.toBulkEffect.issue hf).withReplies, (h.inv.issue h.fsm f).withReplies rest,
    fun t => runFor_of_transaction h.inv.noFault hr' h.fsm hframe hd⟩

/-- An OK answer takes a BULK to its next transaction or to its end (42 R171, R172). -/
theorem BulkAt.ok {p : Byte × Word} (h : BulkAt s n oks (okReply p.1 p.2 :: rest) u) (hr : s.env.resetLine = []) :
    ∃ t, (∀ k, runFor (k + 2) u = runFor k t) ∧
      (BulkAt s n (oks ++ [p]) rest t ∨ BulkDone s n (oks ++ [p]) rest t) := by
  obtain ⟨f, hwait, hinv, hrun⟩ := h.transaction hr
  have hi : ((u.issue f).withReplies rest).seqI.toNat = oks.length := h.seqI
  have hlen : (oks ++ [p]).length = oks.length + 1 := by simp
  obtain ⟨t, ht⟩ := hinv.replyOk_bulk_total rfl h.curOp p.1 p.2
  have he := replyOk_effect ht
  have heff := hwait.reply hinv rfl h.curOp hi he
  rw [← hlen] at heff
  refine ⟨t, hrun t (reply_okReply.trans ht), ?_⟩
  obtain ⟨hfsm, hstatus, hi', -⟩ | ⟨hfsm, hstatus, herr, hend⟩ := he.goesOn_or_ends h.curOp
  · exact .inl { heff with
      inv := hinv.replyOk rfl he
      fsm := hfsm
      curOp := by rw [he.frame]; exact h.curOp
      seqN := by rw [he.frame]; exact h.seqN
      seqI := by rw [hi', hlen, hi]
      resStatus := hstatus.trans h.resStatus
      terr := by rw [he.frame]; exact h.terr }
  · have hcount := hwait.bulkTxns_of_end hinv rfl h.curOp h.seqN hend
    have htxn := hinv.txnCount_of_wait rfl
    exact .inr { heff with
      fsm := hfsm
      err := herr
      txnCount := by rw [he.frame, hlen, ← hi]; exact htxn
      resStatus := by rw [List.getLast?_concat, hstatus]; rfl
      terr := by rw [he.frame]; exact h.terr
      count := by rw [hlen, ← hi, hcount] }

/-- A transport error ends a BULK where it stands (42 R164, R176). -/
theorem BulkAt.err {e : TErr} (h : BulkAt s n oks (.err e :: rest) u) (hr : s.env.resetLine = []) :
    ∃ t, (∀ k, runFor (k + 2) u = runFor k t) ∧ BulkEffect s n oks (oks.length + 1) rest t ∧ t.fsm = .idle ∧
      t.err = .transportError ∧ t.terr = some e ∧ t.txnCount.toNat = oks.length + 1 ∧ t.seqI.toNat = oks.length ∧
      t.resStatus = s.resStatus := by
  obtain ⟨f, hwait, hinv, hrun⟩ := h.transaction hr
  have htxn := hinv.txnCount_of_wait rfl
  refine ⟨((u.issue f).withReplies rest).raiseTransport e, hrun _ rfl, { hwait with }, rfl, rfl, rfl, ?_, h.seqI,
    h.resStatus⟩
  rw [← h.seqI]
  exact htxn

/-! ### Whole runs -/

section
variable {more : List (Byte × Word)} (h : BulkAt s n oks (more.map (fun p => okReply p.1 p.2) ++ later) u)
  (hr : s.env.resetLine = [])
include h hr

/-- OK answers to some but not all transactions take a BULK to the transaction after them. -/
theorem BulkAt.oks_of_lt (hlt : oks.length + more.length < s.bulkTxns n) :
    ∃ t, (∀ k, runFor (k + 2 * more.length) u = runFor k t) ∧ BulkAt s n (oks ++ more) later t := by
  induction more generalizing oks u with
  | nil => exact ⟨u, fun _ => rfl, by rwa [List.append_nil]⟩
  | cons p more ih =>
    rw [List.length_cons] at hlt ⊢
    obtain ⟨t, ht, hat | hdone⟩ := BulkAt.ok (p := p) h hr
    · obtain ⟨t', ht', hat'⟩ := ih hat (by rw [List.length_append, List.length_singleton]; omega)
      exact ⟨t', fun k => (ht (k + 2 * more.length)).trans (ht' k), by rwa [List.append_cons]⟩
    · have hcount := hdone.count
      rw [List.length_append, List.length_singleton] at hcount
      omega

/-- OK answers to all transactions take a BULK to its end. -/
theorem BulkAt.oks_of_eq (heq : oks.length + more.length = s.bulkTxns n) :
    ∃ t, (∀ k, runFor (k + 2 * more.length) u = runFor k t) ∧ BulkDone s n (oks ++ more) later t := by
  induction more generalizing oks u with
  | nil => exact absurd h.lt_bulkTxns (Nat.not_lt.2 heq.ge)
  | cons p more ih =>
    rw [List.length_cons] at heq ⊢
    obtain ⟨t, ht, hat | hdone⟩ := BulkAt.ok (p := p) h hr
    · obtain ⟨t', ht', hdone'⟩ := ih hat (by rw [List.length_append, List.length_singleton]; omega)
      exact ⟨t', fun k => (ht (k + 2 * more.length)).trans (ht' k), by rwa [List.append_cons]⟩
    · have hcount := hdone.count
      rw [List.length_append, List.length_singleton] at hcount
      obtain rfl : more = [] := List.eq_nil_of_length_eq_zero (by omega)
      exact ⟨t, ht, hdone⟩

end
end

/-- The acceptance of the BULK at the port starts its first transaction (42 R169). -/
theorem runFor_of_bulk {s : State} {n : Byte} {w d : Word} {cmds : List (Word × Word)} (h : s.Inv) (hf : s.fsm = .idle)
    (hr : s.env.resetLine = []) (hc : s.env.hostCmds = (w, d) :: cmds) (hd : decode (.cmd w d) = .ok (.bulk n))
    (hn : 1 ≤ n.toNat) (hv : s.actionsValid n.toNat = true) :
    ∃ u, (∀ k, runFor (k + 1) s = runFor k u) ∧ BulkAt (s.withCmds cmds) n.toNat [] s.env.replies u :=
  ⟨_, runFor_of_command (h.ready hf) hr hc hd (exec_bulk_of_valid (ready_withCmds (h.ready hf) cmds) hn hv),
    bulkAt_of_accepted (h.withCmds cmds) hn hv⟩

/-- A BULK whose transactions all succeed, from the port to its end. -/
theorem runFor_bulk_of_oks {s : State} {n : Byte} {w d : Word} {cmds : List (Word × Word)} {oks : List (Byte × Word)}
    {rest : List Reply} (h : s.Inv) (hf : s.fsm = .idle) (hr : s.env.resetLine = [])
    (hc : s.env.hostCmds = (w, d) :: cmds) (hd : decode (.cmd w d) = .ok (.bulk n)) (hn : 1 ≤ n.toNat)
    (hv : s.actionsValid n.toNat = true) (hlen : oks.length = s.bulkTxns n.toNat)
    (hreplies : s.env.replies = oks.map (fun p => okReply p.1 p.2) ++ rest) :
    ∃ t, runFor (1 + 2 * oks.length) s = .next t ∧ BulkDone (s.withCmds cmds) n.toNat oks rest t := by
  obtain ⟨u, hu, hat⟩ := runFor_of_bulk h hf hr hc hd hn hv
  rw [hreplies] at hat
  obtain ⟨t, ht, hdone⟩ := hat.oks_of_eq hr (by rw [List.length_nil, Nat.zero_add, hlen]; rfl)
  refine ⟨t, ?_, hdone⟩
  rw [Nat.add_comm, hu, ← Nat.zero_add (2 * _), ht]
  rfl

/-- The last action of an accepted BULK. -/
theorem entry_of_actionsValid {s : State} {n : Nat} (h : s.internalFault = none) (hn : 1 ≤ n)
    (hv : s.actionsValid n = true) : ∃ e, s.act[n - 1]? = some e := by
  obtain ⟨-, hall⟩ := (actionsValid_iff h).1 hv
  obtain ⟨e, he, -⟩ := hall (n - 1) (by omega)
  exact ⟨e, he⟩

/-- Every frame of the BULK is out once each of its transactions is. -/
theorem take_bulkFrames {s : State} {n : Nat} (h : s.internalFault = none) (hn : 1 ≤ n) (hv : s.actionsValid n = true) :
    (s.bulkFrames n).take (s.bulkTxns n) = s.bulkFrames n := by
  obtain ⟨e, he⟩ := entry_of_actionsValid h hn hv
  exact List.take_of_length_le (bulkFrames_length hn he).le

/-- With all answers in, the reads that have their data are the reads among the `n` actions (42 R171, R172). -/
theorem received_of_bulkTxns {s : State} {n j : Nat} {e : Action} {oks : List (Byte × Word)}
    (hlen : oks.length = s.bulkTxns n) (he : s.act[j]? = some e) : some (e.received oks j) =
      if j < n ∧ e.kind = .read then (oks[j + 1]?).map fun p => { e with word := p.2 } else some e := by
  have hj : j + 2 ≤ oks.length ∧ e.kind = .read ↔ j < n ∧ e.kind = .read := by
    refine and_congr_left fun hk => ?_
    have hr : s.isReadAt j = true := (isReadAt_of_entry he).2 hk
    rw [hlen, State.bulkTxns]
    obtain hne | rfl : j + 1 ≠ n ∨ n = j + 1 := by omega
    · split <;> omega
    · simp [hr]
  simp only [some_received, hj]

/-- Settles O55: the run of the OK answers ends in the state that `BulkDone` describes. -/
theorem bulkResolvesEveryRead : Obligations.BulkResolvesEveryRead := by
  intro s n w d cmds oks rest h hf hr hc hd hn hv hlen hreplies
  obtain ⟨t, ht, hdone⟩ := runFor_bulk_of_oks h hf hr hc hd hn hv hlen hreplies
  obtain ⟨htag, hword, hvalid, haux⟩ := hdone.res
  refine ⟨t, ht, hdone.fsm, hdone.err, hdone.txnCount, hdone.resStatus, fun j e he => ?_, ?_, hdone.map, htag, hword,
    hvalid, haux, hdone.terr, hdone.cfg⟩
  · rw [hdone.act, ← received_of_bulkTxns hlen he, State.withCmds_act, he, Option.map_some]
  · have hframes := take_bulkFrames h.noFault hn hv
    rw [hdone.env, hdone.count]
    exact congrArg (fun l => { s.env with hostCmds := cmds, replies := rest, wire := s.env.wire ++ l }) hframes

/-- Settles O56: `oks.length` OK answers leave the BULK at the transaction that fails. -/
theorem bulkAbortsAtTheFailedTransaction : Obligations.BulkAbortsAtTheFailedTransaction := by
  intro s n w d cmds oks e rest h hf hr hc hd hn hv hlen hreplies
  obtain ⟨u, hu, hat⟩ := runFor_of_bulk h hf hr hc hd hn hv
  rw [hreplies] at hat
  obtain ⟨u', hu', hat'⟩ := hat.oks_of_lt hr (by rw [List.length_nil, Nat.zero_add]; exact hlen)
  obtain ⟨t, ht, heff, hfsm, herr, hterr, htxn, hi, hstatus⟩ := hat'.err hr
  rw [List.nil_append] at heff htxn hi
  obtain ⟨htag, hword, hvalid, haux⟩ := heff.res
  have hrun : runFor (1 + 2 * (oks.length + 1)) s = .next t := by
    rw [show 1 + 2 * (oks.length + 1) = 2 + 2 * oks.length + 1 by omega, hu, hu', ht 0]
    rfl
  refine ⟨t, hrun, hfsm, herr, hterr, htxn, hi, hstatus, fun j a ha => ?_, heff.env, heff.map, htag, hword, hvalid,
    haux, heff.cfg⟩
  rw [heff.act, ← some_received, State.withCmds_act, ha, Option.map_some]

/-! ### A BULK of one action -/

section
variable {s : State} {b : Action} {acts : List Action} {oks : List (Byte × Word)} {rest : List Reply} (h : s.Inv)
  (hact : s.act = b :: acts) (hvalid : b.valid = true)
include h hact hvalid

/-- The buffer's first entry makes a BULK of one action. -/
theorem actionsValid_one : s.actionsValid 1 = true := by
  have hlen := act_length h.noFault
  rw [hact, List.length_cons] at hlen
  simp [State.actionsValid, hact, hvalid]
  omega

/-- A BULK of one action presented to an idle block whose transactions all succeed (42 R178). -/
theorem runFor_bulk_one (hlen : oks.length = 1 + if b.kind = .read then 1 else 0)
    (hreplies : s.env.replies = oks.map (fun p => okReply p.1 p.2) ++ rest) :
    ∃ u, runFor (1 + 2 * oks.length) (s.withFetched (encode (.bulk 1#8))) = .next u ∧ u.fsm = .idle ∧
      u.act = b.received oks 0 :: acts ∧ (oks.getLast?).map (·.1) = some u.resStatus ∧
      u.env.wire = s.env.wire ++ b.frame :: if b.kind = .read then [b.frame] else [] := by
  have hb : s.act[1 - 1]? = some b := by rw [hact]; rfl
  have hv := actionsValid_one h hact hvalid
  obtain ⟨u, hu, hdone⟩ := runFor_bulk_of_oks (h.withFetched _ _) rfl rfl rfl (decodeOfEncodeIsIdentity (.bulk 1#8) rfl)
    (by decide) hv (hlen.trans (bulkTxns_eq hb).symm) hreplies
  refine ⟨u, hu, hdone.fsm, List.ext_getElem? fun j => ?_, hdone.resStatus, ?_⟩
  · rw [hdone.act]
    cases j with
    | zero =>
      have hj : s.act[0]? = some b := hb
      exact congrArg (Option.map fun e : Action => e.received oks 0) hj
    | succ j =>
      have hle : oks.length ≤ j + 1 + 1 := by rw [hlen]; split <;> omega
      have hj : s.act[j + 1]? = acts[j]? := by rw [hact]; rfl
      simp only [received_of_le hle, Option.map_id']
      exact hj
  · have hframes : (s.bulkFrames 1).take (s.bulkTxns 1) = b.frame :: if b.kind = .read then [b.frame] else [] := by
      rw [take_bulkFrames h.noFault (Nat.le_refl 1) hv, bulkFrames_eq hb, hact]
      rfl
    rw [hdone.env, hdone.count]
    exact congrArg (s.env.wire ++ ·) hframes

end

/-- Settles O58: the BULK's frames are the action's own, sent twice for a read, and the last answer ends both runs. -/
theorem singleAccessEqualsBulkOfOne : Obligations.SingleAccessEqualsBulkOfOne := by
  intro s a st1 st2 v rx1 rx2 b acts rest h hf hr hact hvalid htag
  subst htag
  refine ⟨fun ha hk hreplies => ?_, fun ha hk hword hreplies => ?_⟩
  · obtain ⟨u, hu, hidle, hacts, hstatus, hwire⟩ := runFor_bulk_one (oks := [(st1, rx1), (st2, rx2)]) h hact hvalid
      (by rw [if_pos hk]; rfl) hreplies
    have hread := readRegTakesTwoTransactions (s.withFetched (encode (.readReg b.tag))) b.tag st1 st2 _ _ rx1 rx2
      s.env.hostCmds rest ((h.withFetched _ _).ready rfl) rfl rfl (decodeOfEncodeIsIdentity (.readReg b.tag) rfl) ha
      hreplies
    refine ⟨_, u, hread, hu, rfl, hidle, ?_, rfl, ?_, Option.some.inj hstatus⟩
    · rw [hwire, if_pos hk, frame_of_read hk]
      rfl
    · rw [hacts, Action.received]
      simp [hk]
  · subst hword
    obtain ⟨u, hu, hidle, hacts, hstatus, hwire⟩ := runFor_bulk_one (oks := [(st1, rx1)]) h hact hvalid
      (by rw [hk]; rfl) hreplies
    have hwrite := writeRegTakesOneTransaction (s.withFetched (encode (.writeReg b.tag b.word))) b.tag st1 _ b.word rx1
      s.env.hostCmds rest ((h.withFetched _ _).ready rfl) rfl rfl
      (decodeOfEncodeIsIdentity (.writeReg b.tag b.word) rfl) ha hreplies
    refine ⟨_, u, hwrite, hu, rfl, hidle, ?_, ?_, Option.some.inj hstatus⟩
    · rw [hwire, frame_of_write hk, hk]
      rfl
    · rw [hacts, hact]
      rfl

end Sys2Proof.Machine
end

section
/-! BULK's step form against its sequential program (42_protocol.md R169, R183): each `TXN` of the program is an Issue
and a Reply step, and the program's continuation of an answer is the Reply step's. -/

namespace Sys2Proof.Machine

variable {s t u w : State} {st : Byte} {rx : Word} {i : Nat} {f : WireFrame} {e : Action}

/-! ### One `TXN` of the program -/

/-- A `TXN` that fails is two steps of the block, the second ending the command (42 R161, R164). -/
theorem runFor_of_txn_failed (h : u.internalFault = none) (hr : u.env.resetLine = []) (hf : u.fsm = .issue)
    (hw : u.frame = some f) (hx : u.txn f = .failed t) (k : Nat) : runFor (k + 2) u = runFor k t := by
  simp only [State.txn, State.issue_env] at hx
  split at hx
  · cases hx
  · cases hx
  · rename_i e rest hd
    cases hx
    exact runFor_of_transaction h hr hf hw hd rfl k

theorem fsm_of_txn_failed (hx : u.txn f = .failed t) : t.fsm = .idle := by
  simp only [State.txn, State.issue_env] at hx
  split at hx
  · cases hx
  · cases hx
  · cases hx; rfl

/-- A `TXN` that succeeds is an Issue step and the delivery of an answer to the waiting block (42 R161). -/
theorem runFor_of_txn_ok (h : u.internalFault = none) (hr : u.env.resetLine = []) (hf : u.fsm = .issue)
    (hw : u.frame = some f) (hx : u.txn f = .ok w st rx) : ∃ rest, w = (u.issue f).withReplies rest ∧
      ∀ t, w.replyOk st rx = .next t → ∀ k, runFor (k + 2) u = runFor k t := by
  simp only [State.txn, State.issue_env] at hx
  split at hx
  · cases hx
  · rename_i st b0 b1 b2 b3 rest hd
    cases hx
    exact ⟨rest, rfl, fun t ht => runFor_of_transaction h hr hf hw hd ht⟩
  · cases hx

/-! ### The trailing transaction -/

/-- The program's end agrees with the steps after the last action's answer (42 R172, R183). -/
theorem runs_of_bulkTail (h : w.Inv) (hf : w.fsm = .wait) (hr : w.env.resetLine = []) (ho : w.curOp = opBulk)
    (ht : w.seqTrail = false) (hw : w.seqI.toNat = i) (hi : i + 1 = w.seqN.toNat) (he : w.act[i]? = some e)
    (hx : (w.resolvePrevious i rx).bulkTail w.seqN.toNat e st = some t) :
    ∃ v k, w.replyOk st rx = .next v ∧ runFor k v = .next t ∧ t.fsm = .idle := by
  subst hw
  unfold State.bulkTail at hx
  split at hx
  · rename_i hk
    cases hx
    exact ⟨_, 0, replyOk_bulk_last_write ho ht hi he hk, rfl, rfl⟩
  · rename_i hk
    have hv := replyOk_bulk_last_read (st := st) (rx := rx) ho ht hi he hk
    have hinv := h.replyOk hf (replyOk_effect hv)
    have he' : (w.resolvePrevious w.seqI.toNat rx).act[w.seqI.toNat]? = some e := by rw [resolvePrevious_act_self, he]
    have hin : BitVec.ofNat 9 w.seqN.toNat = w.seqI + 1#9 := BitVec.eq_of_toNat_eq (by bv_omega)
    rw [resolvePrevious_eq] at hv hinv hx
    generalize (w.resolvePrevious w.seqI.toNat rx).act = acts at hv hinv hx he'
    rw [hin] at hx
    refine ⟨_, 2, hv, ?_⟩
    have hpos : 1 ≤ w.seqN.toNat := by omega
    have hlast : acts[w.seqN.toNat - 1]? = some e := by rwa [show w.seqN.toNat - 1 = w.seqI.toNat by omega]
    have hframe := frame_of_trailing
      (s := { w with act := acts, seqTrail := true, seqI := w.seqI + 1#9, fsm := .issue }) ho rfl hpos hlast
    split at hx
    · rename_i w' st' rx' htxn
      cases hx
      obtain ⟨rest, rfl, hrun⟩ := runFor_of_txn_ok hinv.noFault hr rfl hframe htxn
      exact ⟨hrun _ (replyOk_trailing ho rfl hpos hlast) 0, rfl⟩
    · rename_i t' htxn
      cases hx
      exact ⟨runFor_of_txn_failed hinv.noFault hr rfl hframe htxn 0, fsm_of_txn_failed htxn⟩
    · cases hx

/-! ### The loop -/

/-- The state in which the program's loop body for index `i` starts, as the steps reach it: about to issue transaction
`i`. -/
def State.issuing (s : State) (i : Nat) : State := { s with seqI := BitVec.ofNat 9 i, fsm := .issue }

/-- The program issues from any state of `FSM`, since the Issue step sets it (42 R161). -/
theorem txn_issuing (s : State) (i : Nat) (f : WireFrame) :
    { s with seqI := BitVec.ofNat 9 i }.txn f = (s.issuing i).txn f := rfl

/-- The answer to an action before the last makes the block issue the next (42 R171). -/
theorem replyOk_bulk_issuing (ho : w.curOp = opBulk) (ht : w.seqTrail = false) (hw : w.seqI.toNat = i)
    (hi : i + 1 < w.seqN.toNat) : w.replyOk st rx = .next ((w.resolvePrevious i rx).issuing (i + 1)) := by
  subst hw
  rw [replyOk_bulk_next ho ht hi, State.issuing, BitVec.ofNat_add, BitVec.ofNat_toNat, BitVec.setWidth_eq]

/-- The program's loop agrees with the steps from the state about to issue its transaction (42 R171, R183). -/
theorem runs_of_bulkLoop (todo : Nat) (h : (s.issuing i).Inv) (hr : s.env.resetLine = []) (ho : s.curOp = opBulk)
    (ht : s.seqTrail = false) (hi : i + todo = s.seqN.toNat) (hx : State.bulkLoop s.seqN.toNat todo i s = some t) :
    ∃ k, runFor k (s.issuing i) = .next t ∧ t.fsm = .idle := by
  induction todo generalizing i s with
  | zero => cases hx
  | succ todo ih =>
    have hseqI : (s.issuing i).seqI.toNat = i := Nat.mod_eq_of_lt (by omega)
    obtain ⟨e, he⟩ := h.entry (j := i) (show i < s.seqN.toNat by omega)
    have hframe : (s.issuing i).frame = some e.frame := frame_of_action ho ht (by rwa [hseqI])
    have he' : s.act[i]? = some e := he
    rw [State.bulkLoop, he'] at hx
    simp only [txn_issuing] at hx
    split at hx
    · rename_i t' htxn
      cases hx
      exact ⟨2, runFor_of_txn_failed h.noFault hr rfl hframe htxn 0, fsm_of_txn_failed htxn⟩
    · cases hx
    · rename_i w st rx htxn
      obtain ⟨rest, rfl, hrun⟩ := runFor_of_txn_ok h.noFault hr rfl hframe htxn
      have hinv := (h.issue rfl e.frame).withReplies rest
      cases todo with
      | zero =>
        obtain ⟨v, k, hv, hk, hidle⟩ := runs_of_bulkTail hinv rfl hr ho ht hseqI hi he hx
        exact ⟨k + 2, (hrun v hv k).trans hk, hidle⟩
      | succ todo =>
        have hv := replyOk_bulk_issuing (st := st) (rx := rx) (w := ((s.issuing i).issue e.frame).withReplies rest)
          ho ht hseqI (show i + 1 < s.seqN.toNat by omega)
        have hseqN := resolvePrevious_seqN (s := ((s.issuing i).issue e.frame).withReplies rest) (rx := rx) i
        obtain ⟨k, hk, hidle⟩ := ih (hinv.replyOk rfl (replyOk_effect hv)) (by rw [resolvePrevious_env]; exact hr)
          (by rw [resolvePrevious_eq]; exact ho) (by rw [resolvePrevious_eq]; exact ht)
          (by rw [hseqN]; exact (by omega : i + 1 + (todo + 1) = s.seqN.toNat)) (by rw [hseqN]; exact hx)
        exact ⟨k + 2, (hrun _ hv k).trans hk, hidle⟩

/-- Settles O54: the acceptance leaves the block about to issue the loop's first transaction. -/
theorem bulkStepsAgreeWithTheSequentialProgram : Obligations.BulkStepsAgreeWithTheSequentialProgram := by
  intro s t n w d cmds h hf hr hc hd hn hv hx
  have haccept := exec_bulk_of_valid (ready_withCmds (h.ready hf) cmds) hn hv
  obtain ⟨k, hk, hidle⟩ := runs_of_bulkLoop (s := { (s.withCmds cmds).accept opBulk with seqN := n }) (i := 0) n.toNat
    ((h.withCmds cmds).acceptBulk hn hv) hr rfl rfl (Nat.zero_add _) hx
  exact ⟨k + 1, (runFor_of_command (h.ready hf) hr hc hd haccept k).trans hk, hidle⟩

end Sys2Proof.Machine
end

section
/-! What can go wrong (60_exceptions.md): an error changes `ERR` alone (R200, R204), a transport that never answers leaves
the block waiting (R215), and no internal fault is reachable (R218), because every command, FRAME(state) and answer has a
next state where the invariant holds. -/

namespace Sys2Proof.Machine

variable {s : State}

/-! ### Errors of commands -/

/-- Settles O40: each effect of a command is the error, the acceptance of a transaction command, or a success. -/
theorem anErrorChangesOnlyErr : Obligations.AnErrorChangesOnlyErr := by
  intro s t i hs h
  cases exec_effect hs h with
  | error e he => exact .inr (.inr ⟨he, rfl⟩)
  | readReg a hi hr => subst hi; exact .inl ⟨rfl, rfl, rfl⟩
  | writeReg a v hi hw => subst hi; exact .inl ⟨rfl, rfl, rfl⟩
  | bulk n hi hn hv => subst hi; exact .inl ⟨rfl, rfl, rfl⟩
  | _ => exact .inr (.inl rfl)

/-! ### A transport that never answers -/

/-- Settles O38: each step is one without an answer, and with the reset line quiet it changes nothing. -/
theorem waitWithoutReplyHangs : Obligations.WaitWithoutReplyHangs := by
  intro s k h hr hf hd
  have hstep : step s = .next s := by rw [step_of_noReply h (noReset_of_nil hr) hf hd, ticked_eq_self s hr]
  induction k with
  | zero => rfl
  | succ k ih => rw [runFor_succ_of_next hstep, ih]

/-! ### Every command has a next state -/

theorem withRes_answers {a : Byte} {r : Result} (hx : ∃ t, r = .next t) : ∃ t, withRes a s r = .next t := by
  cases hh : s.resHolds a with
  | false => exact ⟨_, withRes_not hh⟩
  | true => rwa [withRes_holds hh]

section
variable {a f : Byte} (hs : s.Ready)
include hs

/-- A slot the decoder gives is there to be read (41 R143). -/
theorem withMapSlot_answers {k : Nat} {g : MapSlot → Result} (hk : s.cfg.slot a = some k)
    (hg : ∀ m, ∃ t, g m = .next t) : ∃ t, withMapSlot k s g = .next t := by
  obtain ⟨m, hm, -⟩ := mapSlot_of_slot hs hk
  rw [withMapSlot_some hm]
  exact hg m

theorem addressCommand_answers {g : State → Nat → Result} (hg : ∀ k, s.cfg.slot a = some k → ∃ t, g s k = .next t) :
    ∃ t, addressCommand a g s = .next t := by
  cases hk : s.cfg.slot a with
  | none => exact ⟨_, addressCommand_of_unknown hs hk⟩
  | some k => rw [addressCommand_of_slot hs hk]; exact hg k hk

theorem stateCommand_answers (u : State → State) : ∃ t, stateCommand a u s = .next t :=
  addressCommand_answers hs fun _ _ => withRes_answers ⟨_, rfl⟩

theorem accessCommand_answers (allowed : Config → Byte → Bool) (u : State → State) :
    ∃ t, accessCommand a allowed u s = .next t :=
  addressCommand_answers hs fun k _ => by
    cases ha : allowed s.cfg a with
    | false => exact ⟨_, if_neg Bool.false_ne_true⟩
    | true => exact ⟨_, if_pos rfl⟩

theorem fieldCommand_answers {g : State → Nat → FieldDesc → Result}
    (hg : ∀ k d, s.cfg.slot a = some k → ∃ t, g s k d = .next t) : ∃ t, fieldCommand a f g s = .next t :=
  addressCommand_answers hs fun k hk => by
    cases hd : s.cfg.fmux k f.toNat with
    | none => exact ⟨_, withField_none hd⟩
    | some d => rw [withField_some hd]; exact hg k d hk

theorem exec_bulk_answers (n : Byte) : ∃ t, exec (.bulk n) s = .next t := by
  cases hv : s.actionsValid n.toNat with
  | false => exact ⟨_, exec_bulk_of_badIndex hs hv⟩
  | true =>
    obtain rfl | hn : n = 0#8 ∨ 1 ≤ n.toNat := by bv_omega
    · exact ⟨_, exec_bulk_zero hs⟩
    · exact ⟨_, exec_bulk_of_valid hs hn hv⟩

theorem exec_actionRead_answers (k : Byte) : ∃ t, exec (.actionRead k) s = .next t := by
  cases hk : s.act[k.toNat]? with
  | none => exact ⟨_, exec_actionRead_of_none hs hk⟩
  | some e =>
    cases hv : e.valid with
    | false => exact ⟨_, exec_actionRead_of_empty hs hk hv⟩
    | true => exact ⟨_, exec_actionRead_of_valid hs hk hv⟩

theorem exec_mapStoreRes_answers : ∃ t, exec .mapStoreRes s = .next t := by
  cases hv : s.resValid with
  | false => exact ⟨_, exec_mapStoreRes_of_invalid hs hv⟩
  | true =>
    obtain ⟨k, hk⟩ := slot_resTag hs hv
    exact ⟨_, exec_mapStoreRes_of_slot hs hv hk⟩

theorem exec_actionWrite_answers (k : Byte) (kind : ActKind) (a : Byte) (v : Word) :
    ∃ t, exec (.actionWrite k kind a v) s = .next t := by
  obtain hk | hk := Nat.lt_or_ge k.toNat s.cfg.maxActions
  · cases ha : s.cfg.slot a with
    | none => exact ⟨_, exec_actionWrite_of_unknown hs ha hk kind v⟩
    | some j => exact ⟨_, exec_actionWrite_of_slot hs hk (by rw [ha]; rfl)⟩
  · exact ⟨_, exec_actionWrite_of_badIndex hs hk⟩

/-- A host command neither faults nor is refused in a ready state: its checks end in an error or find what it works
on. -/
theorem exec_answers {i : Instr} (hi : isFrame i = false) : ∃ t, exec i s = .next t := by
  cases i with
  | bulk n => exact exec_bulk_answers hs n
  | actionRead k => exact exec_actionRead_answers hs k
  | mapStoreRes => exact exec_mapStoreRes_answers hs
  | mapDefault => exact ⟨_, exec_mapDefault_of_ready hs⟩
  | readFrame a => simp [isFrame, Instr.mnemonic] at hi
  | writeFrame a v => simp [isFrame, Instr.mnemonic] at hi
  | readReg a => exact accessCommand_answers hs _ _
  | writeReg a v => exact accessCommand_answers hs _ _
  | actionWrite k kind a v => exact exec_actionWrite_answers hs k kind a v
  | mapSetState a v => exact addressCommand_answers hs fun _ _ => ⟨_, rfl⟩
  | mapGet a => exact addressCommand_answers hs fun _ hk => withMapSlot_answers hs hk fun _ => ⟨_, rfl⟩
  | stateCheck a => exact stateCommand_answers hs _
  | stateSet a v => exact stateCommand_answers hs _
  | fieldGet a f => exact fieldCommand_answers hs fun _ _ hk => withMapSlot_answers hs hk fun _ => ⟨_, rfl⟩
  | fieldGetRes a f => exact fieldCommand_answers hs fun _ _ _ => withRes_answers ⟨_, rfl⟩
  | fieldSet a f v => exact fieldCommand_answers hs fun _ _ hk => withMapSlot_answers hs hk fun _ => ⟨_, rfl⟩
  | fieldSetRes a f v => exact fieldCommand_answers hs fun _ _ _ => withRes_answers ⟨_, rfl⟩
  | addrInfo a =>
    rw [exec, execAddrInfo, whenIdle_of_ready hs]
    split <;> exact ⟨_, rfl⟩
  | addrEnum k =>
    rw [exec, execAddrEnum, whenIdle_of_ready hs]
    split <;> exact ⟨_, rfl⟩

end

/-- The opcodes select host commands, never a wire frame (30 R90). -/
theorem isFrame_of_commandOf {w d : Word} {i : Instr} (h : commandOf w d = some i) : isFrame i = false := by
  unfold commandOf at h
  split at h
  case h_14 => cases h
  all_goals
    cases h
    cases cmdKind w <;> rfl

/-- Any pair at the port has a next state: it is a command, or it is illegal (60 R205). -/
theorem runDecoded_cmd_answers (hs : s.Ready) (w d : Word) : ∃ t, runDecoded (.cmd w d) s = .next t := by
  by_cases hl : cmdRsv1 w = 0 ∧ cmdRsv0 w = 0 ∧ cmdOp w ∉ [0x0#4, 0xE#4, 0xF#4]
  · obtain ⟨i, hi, hd⟩ := decode_of_legal (d := d) hl
    rw [runDecoded_of_ok hd]
    exact exec_answers hs (isFrame_of_commandOf hi)
  · obtain ⟨r, hrej⟩ := decode_of_illegal (d := d) hl
    exact ⟨_, runDecoded_of_error hrej s⟩

/-! ### Every step of the block has a next state -/

/-- Without `Reset` an idle block with no command presented waits (30 R92). -/
theorem step_of_noCommand (hs : s.Ready) (hr : s.noReset) (hc : s.env.hostCmds = []) : step s = .next s.ticked := by
  rw [step_of_noReset hr, engineStep_idle (by simpa using hs.noFault) (by simpa using hs.idle)]
  simp [State.hostCmdStep, hc]

namespace State.Inv

/-- A block about to issue has a frame to hand over (42 R162, R170). -/
theorem exists_frame (h : s.Inv) (hf : s.fsm = .issue) : ∃ f, s.frame = some f := by
  obtain ⟨ho, -⟩ | ⟨ho, -⟩ | ⟨ho, hn, -, hbefore, -⟩ := h.sequencer (by simp [hf])
  · exact ⟨_, frame_of_readReg ho⟩
  · exact ⟨_, frame_of_writeReg ho⟩
  · cases ht : s.seqTrail with
    | true =>
      obtain ⟨e, he⟩ := h.entry (j := s.seqN.toNat - 1) (by omega)
      exact ⟨_, frame_of_trailing ho ht hn he⟩
    | false =>
      obtain ⟨e, he⟩ := h.entry (hbefore ht)
      exact ⟨_, frame_of_action ho ht he⟩

/-- An OK answer has a continuation, that of the command in progress (42 R163). -/
theorem replyOk_answers (h : s.Inv) (hf : s.fsm = .wait) (st : Byte) (rx : Word) : ∃ t, s.replyOk st rx = .next t := by
  obtain ⟨ho, -, hi, -⟩ | ⟨ho, -⟩ | ⟨ho, -⟩ := h.sequencer (by simp [hf])
  · obtain hi | hi : s.seqI = 0#9 ∨ s.seqI = 1#9 := by bv_omega
    · exact ⟨_, replyOk_readReg_first ho hi⟩
    · exact ⟨_, replyOk_readReg_second ho hi⟩
  · exact ⟨_, replyOk_writeReg ho⟩
  · exact h.replyOk_bulk_total hf ho st rx

/-- A result of the transport has a next state (42 R163, R164). -/
theorem reply_answers (h : s.Inv) (hf : s.fsm = .wait) (r : Reply) : ∃ t, s.reply r = .next t := by
  cases r with
  | ok st b0 b1 b2 b3 => exact h.replyOk_answers hf st (unbe32 b0 b1 b2 b3)
  | err e => exact ⟨_, rfl⟩

theorem stepsOn_of_idle (h : s.Inv) (hr : s.noReset) (hf : s.fsm = .idle) : s.stepsOn := by
  cases hc : s.env.hostCmds with
  | nil => exact ⟨_, step_of_noCommand (h.ready hf) hr hc⟩
  | cons p rest =>
    rw [State.stepsOn, step_of_command h.noFault hr hf hc]
    exact runDecoded_cmd_answers ((h.ticked.withCmds rest).ready hf) p.1 p.2

theorem stepsOn_of_issue (h : s.Inv) (hr : s.noReset) (hf : s.fsm = .issue) : s.stepsOn := by
  obtain ⟨f, hw⟩ := h.exists_frame hf
  exact ⟨_, step_of_issue h.noFault hr hf hw⟩

theorem stepsOn_of_wait (h : s.Inv) (hr : s.noReset) (hf : s.fsm = .wait) : s.stepsOn := by
  cases hd : s.env.replies with
  | nil => exact ⟨_, step_of_noReply h.noFault hr hf hd⟩
  | cons r rest =>
    rw [State.stepsOn, step_of_reply h.noFault hr hf hd]
    exact (h.ticked.withReplies rest).reply_answers hf r

end State.Inv

/-- Settles O50: `Reset` always steps, and without it each `FSM` has a step. -/
theorem internalFaultsAreUnreachable : Obligations.InternalFaultsAreUnreachable := by
  intro s h
  by_cases hr : s.noReset
  · obtain hf | hf | hf := h.fsm_cases
    · exact h.stepsOn_of_idle hr hf
    · exact h.stepsOn_of_issue hr hf
    · exact h.stepsOn_of_wait hr hf
  · obtain ⟨env, hx⟩ := step_of_reset hr
    exact ⟨_, hx⟩

end Sys2Proof.Machine
end

section
/-! SUPPORT. The `Reset` step of 70 R230, register by register, and the block's wait after it. -/

namespace Sys2Proof.Machine

/-- An asserted `Reset` gives the reset state; the environment's reset line moves on by one, and nothing else of the
environment changes (log 5). -/
theorem step_of_resetLine {s : State} {rest : List Bool} (hl : s.env.resetLine = true :: rest) :
    step s = .next (State.resetOf s.cfg { s.env with resetLine := rest }) := by
  simp [step, State.nextStep, hl, State.resetStep]

/-- Settles O39: the Reset step gives `State.resetOf`, whose fields are the values of R230; the reset state is ready, so
with nothing presented it waits, and with the reset line quiet for good the wait changes nothing. -/
theorem resetSetsEveryRegister : Obligations.ResetSetsEveryRegister := by
  refine ⟨fun s rest hl => ?_, fun c env hl hc => ?_⟩
  · rw [step_of_resetLine hl]
    rfl
  · have hquiet : (State.resetOf c env).env.resetLine = [] := hl
    rw [step_of_noCommand (ready_resetOf c env) (noReset_of_nil hquiet) hc, ticked_eq_self _ hquiet]

end Sys2Proof.Machine
end
